-- ==== Sys2Proof/Word.lean ====
section
/-! DEFINITION. The widths the manual names, and nothing else. -/

namespace Sys2Proof

/-- A byte. -/
abbrev Byte := BitVec 8
/-- A 16-bit quantity (a halfword, a page-ownership entry, a stream identity). -/
abbrev W16 := BitVec 16
/-- A 32-bit word, also an instruction word (R78). -/
abbrev W32 := BitVec 32
/-- A 64-bit word, a general register, a control register or an on-chip register (R48, R492). -/
abbrev W64 := BitVec 64
/-- A vector register (R48). -/
abbrev W512 := BitVec 512
/-- A physical address of R5. -/
abbrev Pa := BitVec 52
/-- An owner identity (Table 3 of 00_scope). -/
abbrev Owner := BitVec 12

end Sys2Proof
end

