-- ==== Sys2Proof/Syntax.lean ====
section
/-! DEFINITION. The commands of the part: one constructor per row of spec/opcode_table.json, with the operands the row
needs. An instruction of a core carries the core and the fields of its encoding (R79); an event carries what the board, a
device or free-running hardware decides. -/

namespace Sys2Proof

/-- A core by CR.COREID (R4). -/
abbrev CoreId := Fin 192
/-- A general, floating or vector register field (R79). -/
abbrev RegNo := BitVec 5

/-- rd, ra and rb of the R format (R79). -/
structure RRR where
  rd : RegNo
  ra : RegNo
  rb : RegNo
deriving DecidableEq, Repr

/-- The functions of Table 3 of 03 other than division (R83). -/
inductive OpFn
  | add | sub | and | or | xor | andn | orn | xnor | sll | srl | sra | ror | slt | sltu | min | max | minu | maxu
  | cmovz | cmovnz | mul | mulxSs | mulxUu | mulxSu | clz | ctz | popc | rev8 | sextB | sextH | sextW | zextW
deriving DecidableEq, Repr

/-- The four divisions (R84). -/
inductive DivFn
  | div | divu | rem | remu
deriving DecidableEq, Repr

/-- The 32-bit functions (R85). -/
inductive OpwFn
  | addw | subw | sllw | srlw | sraw | mulw | divw | divuw | remw | remuw
deriving DecidableEq, Repr

/-- A scalar access width. -/
inductive Width
  | w8 | w16 | w32 | w64
deriving DecidableEq, Repr

/-- Load kinds 0-6 of major 0x0D (R88). -/
inductive LdKind
  | sb | sh | sw | dw | ub | uh | uw
deriving DecidableEq, Repr

/-- The I format: rd, ra and imm15 (R79). -/
structure RI where
  rd : RegNo
  ra : RegNo
  imm : BitVec 15
deriving DecidableEq, Repr

/-- A shift by immediate: rd, ra and bits [5:0] (R87). -/
structure RSh where
  rd : RegNo
  ra : RegNo
  sh : BitVec 6
deriving DecidableEq, Repr

/-- The U format (R79). -/
structure RU where
  rd : RegNo
  imm : BitVec 20
deriving DecidableEq, Repr

/-- The M format: rd, ra and imm12 (R79). -/
structure RM where
  rd : RegNo
  ra : RegNo
  imm : BitVec 12
deriving DecidableEq, Repr

/-- Operands of an atomic: size (true for 64 bits), F, AQ, RL (R92). -/
structure AtF where
  rd : RegNo
  ra : RegNo
  rb : RegNo
  dword : Bool
  far : Bool
  aq : Bool
  rl : Bool
deriving DecidableEq, Repr

/-- Atomic functions (R92). -/
inductive AtFn
  | swap | cas | add | and | or | xor | smax | smin | umax | umin
deriving DecidableEq, Repr

/-- The B format: first and second operand, D, A, off10 (R97). -/
structure BF where
  rd : RegNo
  ra : RegNo
  d : Bool
  a : Bool
  off : BitVec 10
deriving DecidableEq, Repr

/-- How a branch finds its target (R179, R181). -/
inductive BranchKind
  | direct | indirect | ret
deriving DecidableEq, Repr

/-- The Z format (R97). -/
structure ZF where
  rd : RegNo
  d : Bool
  a : Bool
  off : BitVec 15
deriving DecidableEq, Repr

/-- The V format (R138). `sc` is true for the scalar-operand majors 0x32 and 0x35 (and funcs 2, 3 of 0x4B). `stop` is
the element at which an interrupt stops a held instruction, if one does (R156). -/
structure VF where
  vd : RegNo
  va : RegNo
  vb : RegNo
  m : Bool
  msk : BitVec 3
  sc : Bool
  stop : Option Nat
deriving DecidableEq, Repr

/-- A vector memory instruction (R149): `iw` is the index width field of mode 2. -/
structure VM where
  vd : RegNo
  ra : RegNo
  rb : RegNo
  m : Bool
  msk : BitVec 3
  iw : BitVec 2
  stop : Option Nat
deriving DecidableEq, Repr

/-- Scalar floating-point functions FADD to FCVT.F.XU of Table 6 of 04 (R145). -/
inductive FpFn
  | add | sub | mul | div | sqrt | min | max | sign | signN | signX | madd | msub | nmsub | cvtXF | cvtFX | cvtXuF | cvtFXu
deriving DecidableEq, Repr

/-- Decimal functions of Table 7 of 04 (R144). -/
inductive DecFn
  | add | sub | mul | div | fma | quant | rint | min | max | cvtDI | cvtID | eq | lt | le
deriving DecidableEq, Repr

/-- A floating-point type of func[9:8] (R145). -/
inductive FpTy
  | fp16 | bf16 | fp32 | fp64
deriving DecidableEq, Repr

/-- Length of the CRC32C step (R122). -/
inductive CrcLen
  | n1 | n2 | n4 | n8
deriving DecidableEq, Repr

/-- One failed try of a link frame (R29). -/
inductive LinkFail
  | nakCrc | silent | badRcrc | nakCommand
deriving DecidableEq, Repr

/-- A temperature sensor (R45). -/
inductive Sensor
  | tile (t : Fin 96)
  | uncore (u : Fin 8)
deriving DecidableEq, Repr

/-- What a thermal hold covers (R46). -/
inductive HoldScope
  | die (d : Fin 4)
  | uncore
deriving DecidableEq, Repr

/-- A package wake source (Table 5 of 14). -/
inductive WakeSrc
  | i3c | wakeN | gpio | timer | swd
deriving DecidableEq, Repr

/-- The attributes a register or memory transaction carries (Table 2 of 08). `core` is the issuing core, where a core
issues it (PREQSELF of R408 needs it). -/
structure Attr where
  secure : Bool
  owner : Owner
  priv : BitVec 3
  core : Option CoreId
  qos : BitVec 6
deriving DecidableEq, Repr

/-- A block with CTL and STAT (R260). -/
inductive Block
  | mc (n : Fin 16)
  | vlt (n : Fin 96)
  | oec (k : Fin 4)
  | rc (k : Fin 8)
  | irt
deriving DecidableEq, Repr

/-- An error ring: MC[n], or the uncore ring of MESH[132] (R310). -/
inductive Ring
  | mc (n : Fin 16)
  | uncore
deriving DecidableEq, Repr

/-- Which agent's ownership cache (R327). -/
inductive OwnCache
  | mc (n : Fin 16)
  | vlt (n : Fin 96)
  | rc (k : Fin 4)
deriving DecidableEq, Repr

/-- The register behind a read of an RC field (R6). -/
inductive RcReg
  | mesh_deny (n : Fin 132)
  | mesh_linkstat (n : Fin 132) (d : Fin 4)
  | own_denycnt
  | elogovf (r : Ring)
  | vistat (k : Fin 4) (v : Fin 256)
  | lanestat (k : Fin 4)
  | shalt (k : Fin 8)
  | iofltptr_rc (k : Fin 8)
  | iofltptr_oec (k : Fin 4)
  | irt_dbrej
  | irt_vfail
  | lv_wakesrc
  | lv_rcnt (r : Fin 22)
deriving DecidableEq, Repr

/-- Who issues an outbound request (R436): a core, Wicket or Louvre. -/
inductive Requester
  | core (c : CoreId)
  | wicket
  | louvre
deriving DecidableEq, Repr

/-- How an access that waits for a response ends (R193, R436). -/
inductive Response
  | ok (data : W64)
  | unsupported
  | abort
  | poisoned
  | retryStatus
deriving DecidableEq, Repr

/-- A memory request a port or controller accepts: a read of the line, or a write of the enabled bytes. -/
inductive MemOp
  | read
  | write (data : W512) (enable : BitVec 64) (poison : BitVec 8)
deriving DecidableEq, Repr

/-- What a device sends that is no completion: a memory request, a translation request of ATS, or an INTx message (R430). -/
inductive TlpKind
  | memory | translation | intx
deriving DecidableEq, Repr

/-- An inbound request (R440): bus address, stream identity, port, payload bytes (empty for a read of `len` bytes), byte enables, and the
bits the rules look at: a PASID prefix and an ECRC that does not match (R430), poison, relaxed ordering, a processing hint, and the
IDE stream with its MAC check (R448). -/
structure Inbound where
  kind : TlpKind
  pasid : Bool
  ecrcBad : Bool
  rc : Fin 8
  port : Fin 4
  sid : W16
  addr : W64
  write : Bool
  len : Nat
  data : List Byte
  enable : List Bool
  poisoned : Bool
  relaxed : Bool
  hint : Bool
  ide : Option (BitVec 8)
  macOk : Bool
deriving DecidableEq, Repr

/-- The first-level cache an access uses: L1D, L1I, or none for a walker read (R236, R247). -/
inductive L1
  | d | i | none
deriving DecidableEq, Repr

/-- Where a stored bit changes by itself (R303). -/
inductive Upset
  | l1i (c : CoreId) (line : BitVec 46)
  | l1dData (c : CoreId) (line : BitVec 46) (word : Fin 8) (double : Bool)
  | l1dTag (c : CoreId) (line : BitVec 46)
  | l2Data (c : CoreId) (line : BitVec 46) (word : Fin 8) (double : Bool)
  | l2Tag (c : CoreId) (set : Fin 2048) (double : Bool)
  | llcData (slice : Fin 96) (line : BitVec 46) (word : Fin 8) (double : Bool)
  | llcTag (slice : Fin 96) (set : Fin 2048) (double : Bool)
  | vault (pa : Pa) (double : Bool)
  | dram (line : BitVec 46) (symbols : List (Fin 80))
deriving DecidableEq, Repr

/-- What SPD discovery and training of one channel find (R270-R273, R285): the fields of DIMMCFG, the serial number, the activations of a
bank that require refresh management (none where the SPD does not), whether chip select and command/address train, and per strobe lane
which of the 128 steps pass for reads and for writes. -/
structure Dimm where
  supported : Bool
  x8 : Bool
  d32 : Bool
  r2 : Bool
  h : BitVec 2
  serial : W32
  rfm : Option Nat
  caOk : Bool
  lanes : List (BitVec 128 × BitVec 128)
deriving DecidableEq, Repr

/-- A slot of one channel at discovery: empty, or a module (R269, R270). -/
abbrev Slot := Option Dimm

/-- The address map Wicket firmware chooses (R488): MAPCFG fields, masks and CRMASK. -/
structure MapChoice where
  n : BitVec 6
  chbits : BitVec 3
  rkbits : BitVec 2
  masks : List (BitVec 36)
  crmask : BitVec 36
deriving DecidableEq, Repr

/-- An instruction whose access may leave its core and not be repeatable (R192): the scalar loads and stores and the atomics. -/
inductive InFlight
  | load (k : LdKind) (f : RM)
  | loadX (k : LdKind) (sc : BitVec 2) (f : RRR)
  | loadF (wd : Width) (f : RM)
  | loadA (wd : Width) (f : RM)
  | store (wd : Width) (f : RM)
  | storeX (wd : Width) (sc : BitVec 2) (f : RRR)
  | storeF (wd : Width) (f : RM)
  | storeL (wd : Width) (f : RM)
  | atomic (fn : AtFn) (f : AtF)
deriving DecidableEq, Repr

/-- A rail that start-up does not bring up (R22, R23): the frame to its regulator that is not acknowledged and its tries, of the four
before ENABLE and ENABLE; or none, and it does not report VOUT_OK. -/
structure RailFail where
  rail : Fin 9
  frame : Option (Fin 5 × List LinkFail)
deriving DecidableEq, Repr

/-- A frame of a sweep that fails (R29, R35): the regulator, CLEAR_STATUS or else READ_STATUS, its tries. -/
structure SweepFail where
  rail : Fin 9
  clear : Bool
  fails : List LinkFail
deriving DecidableEq, Repr

/-- What the board and Wicket firmware bring to one start-up (R355): the self-test verdict, whether the flash can be read, the blocks
of the flash programmed since the last start-up (offset and bytes), DIMMs, the rail that fails, the map chosen, and the stores that
fail. -/
structure BootIn where
  selfTestOk : Bool
  flashOk : Bool
  flash : List (Nat × List Byte)
  sfdpOk : Bool
  railFails : Option RailFail
  slots : List Slot
  map : MapChoice
  chainWritable : Bool
  fillFails : List (BitVec 46)
deriving DecidableEq, Repr

/-- A memory-health entry (Table 8 of 12). -/
structure HealthEntry where
  typ : Byte
  ch : Byte
  a : Byte
  b : Byte
  serial : W32
  value : W64
deriving DecidableEq, Repr

/-- The commands. -/
inductive Instr
  -- integer instructions (03)
  | op (c : CoreId) (fn : OpFn) (f : RRR)
  | div (c : CoreId) (fn : DivFn) (f : RRR)
  | opw (c : CoreId) (fn : OpwFn) (f : RRR)
  | addi (c : CoreId) (f : RI)
  | andi (c : CoreId) (f : RI)
  | ori (c : CoreId) (f : RI)
  | xori (c : CoreId) (f : RI)
  | slti (c : CoreId) (f : RI)
  | sltiu (c : CoreId) (f : RI)
  | addiw (c : CoreId) (f : RI)
  | lui (c : CoreId) (f : RU)
  | addpc (c : CoreId) (f : RU)
  | slli (c : CoreId) (f : RSh)
  | srli (c : CoreId) (f : RSh)
  | srai (c : CoreId) (f : RSh)
  | rori (c : CoreId) (f : RSh)
  | slliw (c : CoreId) (f : RSh)
  | srliw (c : CoreId) (f : RSh)
  | sraiw (c : CoreId) (f : RSh)
  -- loads and stores (03)
  | ldB (c : CoreId) (f : RM)
  | ldH (c : CoreId) (f : RM)
  | ldW (c : CoreId) (f : RM)
  | ld (c : CoreId) (f : RM)
  | ldBu (c : CoreId) (f : RM)
  | ldHu (c : CoreId) (f : RM)
  | ldWu (c : CoreId) (f : RM)
  | stB (c : CoreId) (f : RM)
  | stH (c : CoreId) (f : RM)
  | stW (c : CoreId) (f : RM)
  | st (c : CoreId) (f : RM)
  | fldH (c : CoreId) (f : RM)
  | fldW (c : CoreId) (f : RM)
  | fldD (c : CoreId) (f : RM)
  | fstH (c : CoreId) (f : RM)
  | fstW (c : CoreId) (f : RM)
  | fstD (c : CoreId) (f : RM)
  | lda (c : CoreId) (wd : Width) (f : RM)
  | stl (c : CoreId) (wd : Width) (f : RM)
  | ldx (c : CoreId) (k : LdKind) (s : BitVec 2) (f : RRR)
  | stx (c : CoreId) (wd : Width) (s : BitVec 2) (f : RRR)
  | st64 (c : CoreId) (vd : RegNo) (ra : RegNo) (imm : BitVec 10)
  -- atomics (03)
  | atSwap (c : CoreId) (f : AtF)
  | atCas (c : CoreId) (f : AtF)
  | atAdd (c : CoreId) (f : AtF)
  | atAnd (c : CoreId) (f : AtF)
  | atOr (c : CoreId) (f : AtF)
  | atXor (c : CoreId) (f : AtF)
  | atSmax (c : CoreId) (f : AtF)
  | atSmin (c : CoreId) (f : AtF)
  | atUmax (c : CoreId) (f : AtF)
  | atUmin (c : CoreId) (f : AtF)
  -- branches and jumps (03)
  | beq (c : CoreId) (f : BF)
  | bne (c : CoreId) (f : BF)
  | blt (c : CoreId) (f : BF)
  | bge (c : CoreId) (f : BF)
  | bltu (c : CoreId) (f : BF)
  | bgeu (c : CoreId) (f : BF)
  | beqz (c : CoreId) (f : ZF)
  | bnez (c : CoreId) (f : ZF)
  | bltz (c : CoreId) (f : ZF)
  | bgez (c : CoreId) (f : ZF)
  | bgtz (c : CoreId) (f : ZF)
  | blez (c : CoreId) (f : ZF)
  | jal (c : CoreId) (rd : RegNo) (d : Bool) (off : BitVec 19)
  | jalr (c : CoreId) (rd ra : RegNo) (d : Bool) (imm : BitVec 13)
  -- cache maintenance (03, 07)
  | dcz (c : CoreId) (ra : RegNo)
  | preload (c : CoreId) (ra : RegNo) (level : BitVec 2) (dropped : Bool)
  | preloadF (c : CoreId) (ra : RegNo) (level : BitVec 2)
  | dcrClean (c : CoreId) (ra rb : RegNo) (stop : Option Nat)
  | dcrInv (c : CoreId) (ra rb : RegNo) (stop : Option Nat)
  | dcrCinv (c : CoreId) (ra rb : RegNo) (stop : Option Nat)
  -- TLB invalidation (03)
  | xlinvPage (c : CoreId) (ra rb : RegNo) (loc : Bool)
  | xlinvSpace (c : CoreId) (ra rb : RegNo) (loc : Bool)
  | xlinvS1 (c : CoreId) (ra rb : RegNo) (loc : Bool)
  | xlinvGpage (c : CoreId) (ra rb : RegNo) (loc : Bool)
  | xlinvMach (c : CoreId) (ra rb : RegNo) (loc : Bool)
  | xlinvNorm (c : CoreId) (ra rb : RegNo) (loc : Bool)
  | xlinvHpage (c : CoreId) (ra rb : RegNo) (loc : Bool)
  | xlinvSec (c : CoreId) (ra rb : RegNo) (loc : Bool)
  -- control, ordering, prediction (03)
  | eret (c : CoreId)
  | ei (c : CoreId)
  | di (c : CoreId)
  | ctlsync (c : CoreId)
  | fenceI (c : CoreId)
  | fence (c : CoreId) (pr pw sr sw : Bool)
  | predFlush (c : CoreId)
  | predBar (c : CoreId)
  | wait (c : CoreId) (ra : RegNo)
  | sleepAjar (c : CoreId) (rd : RegNo) (holdStep : Option (Fin 9))
  | sleepLatched (c : CoreId) (rd : RegNo) (holdStep : Option (Fin 9))
  | sleepClosed (c : CoreId) (rd : RegNo) (holdStep : Option (Fin 9))
  -- calls, worlds, debug (03, 11)
  | svc (c : CoreId) (imm : W16)
  | hvc (c : CoreId) (imm : W16)
  | gate (c : CoreId) (imm : W16)
  | brk (c : CoreId) (imm : W16)
  | gateRet (c : CoreId)
  | ownSet (c : CoreId) (f : RRR)
  | crr (c : CoreId) (rd : RegNo) (n : BitVec 12)
  | crw (c : CoreId) (n : BitVec 12) (ra : RegNo)
  | clmul (c : CoreId) (f : RRR)
  | clmulh (c : CoreId) (f : RRR)
  | crc32c (c : CoreId) (n : CrcLen) (f : RRR)
  -- inside a core (05, 07)
  | onchipAccessTimeout (c : CoreId) (a : InFlight)
  -- vector configuration and completion (04, 14)
  | vconf (c : CoreId) (rd ra : RegNo) (cfg : BitVec 7)
  | vconfMax (c : CoreId) (rd : RegNo) (cfg : BitVec 7)
  | vconfKeep (c : CoreId) (rd : RegNo) (cfg : BitVec 7)
  -- vector integer (04)
  | vadd (c : CoreId) (f : VF)
  | vsub (c : CoreId) (f : VF)
  | vsubr (c : CoreId) (f : VF)
  | vand (c : CoreId) (f : VF)
  | vor (c : CoreId) (f : VF)
  | vxor (c : CoreId) (f : VF)
  | vsll (c : CoreId) (f : VF)
  | vsrl (c : CoreId) (f : VF)
  | vsra (c : CoreId) (f : VF)
  | vmin (c : CoreId) (f : VF)
  | vmax (c : CoreId) (f : VF)
  | vminu (c : CoreId) (f : VF)
  | vmaxu (c : CoreId) (f : VF)
  | vmul (c : CoreId) (f : VF)
  | vmulxSs (c : CoreId) (f : VF)
  | vmulxUu (c : CoreId) (f : VF)
  | vdiv (c : CoreId) (f : VF)
  | vdivu (c : CoreId) (f : VF)
  | vrem (c : CoreId) (f : VF)
  | vremu (c : CoreId) (f : VF)
  | vblend (c : CoreId) (f : VF)
  | vcopy (c : CoreId) (f : VF)
  | vcmpEq (c : CoreId) (f : VF)
  | vcmpNe (c : CoreId) (f : VF)
  | vcmpLt (c : CoreId) (f : VF)
  | vcmpLtu (c : CoreId) (f : VF)
  | vcmpLe (c : CoreId) (f : VF)
  | vcmpLeu (c : CoreId) (f : VF)
  | vcmpGt (c : CoreId) (f : VF)
  | vcmpGtu (c : CoreId) (f : VF)
  -- masks and permutes (04)
  | mskAnd (c : CoreId) (f : VF)
  | mskOr (c : CoreId) (f : VF)
  | mskXor (c : CoreId) (f : VF)
  | mskAndn (c : CoreId) (f : VF)
  | mskCount (c : CoreId) (f : VF)
  | mskFirst (c : CoreId) (f : VF)
  | vprefix (c : CoreId) (f : VF)
  | vindex (c : CoreId) (f : VF)
  | vextract (c : CoreId) (f : VF)
  | vinsert (c : CoreId) (f : VF)
  | vshiftup (c : CoreId) (f : VF)
  | vshiftdn (c : CoreId) (f : VF)
  | vperm (c : CoreId) (f : VF)
  | vpack (c : CoreId) (f : VF)
  -- reductions and dot products (04)
  | vredAdd (c : CoreId) (f : VF)
  | vredAnd (c : CoreId) (f : VF)
  | vredOr (c : CoreId) (f : VF)
  | vredXor (c : CoreId) (f : VF)
  | vredMin (c : CoreId) (f : VF)
  | vredMax (c : CoreId) (f : VF)
  | vredMinu (c : CoreId) (f : VF)
  | vredMaxu (c : CoreId) (f : VF)
  | vfredOadd (c : CoreId) (f : VF)
  | vfredMin (c : CoreId) (f : VF)
  | vfredMax (c : CoreId) (f : VF)
  | vdot4Ss (c : CoreId) (f : VF)
  | vdot4Uu (c : CoreId) (f : VF)
  | vdot4Su (c : CoreId) (f : VF)
  -- vector floating point (04)
  | vfadd (c : CoreId) (f : VF)
  | vfsub (c : CoreId) (f : VF)
  | vfmul (c : CoreId) (f : VF)
  | vfdiv (c : CoreId) (f : VF)
  | vfsqrt (c : CoreId) (f : VF)
  | vfmin (c : CoreId) (f : VF)
  | vfmax (c : CoreId) (f : VF)
  | vfsign (c : CoreId) (f : VF)
  | vfsignN (c : CoreId) (f : VF)
  | vfsignX (c : CoreId) (f : VF)
  | vfmadd (c : CoreId) (f : VF)
  | vfmsub (c : CoreId) (f : VF)
  | vfnmsub (c : CoreId) (f : VF)
  | vfcvtXF (c : CoreId) (f : VF)
  | vfcvtXuF (c : CoreId) (f : VF)
  | vfcvtFX (c : CoreId) (f : VF)
  | vfcvtFXu (c : CoreId) (f : VF)
  | vfeq (c : CoreId) (f : VF)
  | vflt (c : CoreId) (f : VF)
  | vfle (c : CoreId) (f : VF)
  | vfunord (c : CoreId) (f : VF)
  -- vector decimal (04); `big` selects decimal128
  | dadd (c : CoreId) (big : Bool) (f : VF)
  | dsub (c : CoreId) (big : Bool) (f : VF)
  | dmul (c : CoreId) (big : Bool) (f : VF)
  | ddiv (c : CoreId) (big : Bool) (f : VF)
  | dfma (c : CoreId) (big : Bool) (f : VF)
  | dquant (c : CoreId) (big : Bool) (f : VF)
  | drint (c : CoreId) (big : Bool) (f : VF)
  | dmin (c : CoreId) (big : Bool) (f : VF)
  | dmax (c : CoreId) (big : Bool) (f : VF)
  | dcvtDI (c : CoreId) (big : Bool) (f : VF)
  | dcvtID (c : CoreId) (big : Bool) (f : VF)
  | deq (c : CoreId) (big : Bool) (f : VF)
  | dlt (c : CoreId) (big : Bool) (f : VF)
  | dle (c : CoreId) (big : Bool) (f : VF)
  -- scalar floating point and decimal (04)
  | scalarFp (c : CoreId) (ty : FpTy) (fn : FpFn) (f : RRR)
  | feq (c : CoreId) (ty : FpTy) (f : RRR)
  | flt (c : CoreId) (ty : FpTy) (f : RRR)
  | fle (c : CoreId) (ty : FpTy) (f : RRR)
  | funord (c : CoreId) (ty : FpTy) (f : RRR)
  | fmvXF (c : CoreId) (ty : FpTy) (rd ra : RegNo)
  | fmvFX (c : CoreId) (ty : FpTy) (rd ra : RegNo)
  | fcvtFF (c : CoreId) (ty src : FpTy) (rd ra : RegNo)
  | scalarDecimal (c : CoreId) (big : Bool) (fn : DecFn) (f : RRR)
  -- vector cryptographic rounds (04)
  | vsha256Rnd2 (c : CoreId) (f : VF)
  | vsha256Sig0 (c : CoreId) (f : VF)
  | vsha256Sig1 (c : CoreId) (f : VF)
  | vaesenc (c : CoreId) (f : VF)
  | vaesenclast (c : CoreId) (f : VF)
  | vaesdec (c : CoreId) (f : VF)
  | vaesdeclast (c : CoreId) (f : VF)
  | vaesimc (c : CoreId) (f : VF)
  | vaessubw (c : CoreId) (f : VF)
  | vclmul (c : CoreId) (f : VF)
  | vclmulh (c : CoreId) (f : VF)
  -- vector memory (04)
  | vld (c : CoreId) (f : VM)
  | vst (c : CoreId) (f : VM)
  | vlds (c : CoreId) (f : VM)
  | vsts (c : CoreId) (f : VM)
  | vldx (c : CoreId) (f : VM)
  | vstx (c : CoreId) (f : VM)
  | vldtr (c : CoreId) (f : VM)
  -- other accesses and words of a core (15, 16, 03)
  | ieoi (c : CoreId) (ra : RegNo)
  | vcpuWrite (c : CoreId) (ra : RegNo)
  | unassignedEncoding (c : CoreId) (w : W32)
  | configAccess (who : Requester) (rd : RegNo) (addr : W64) (write : Bool) (wd : Width) (v : W64)
  | outboundRequest (who : Requester) (rd : RegNo) (addr : W64) (write : Bool) (wd : Width) (v : W64)
  -- events of a core (03, 04, 05, 07, 14)
  | branchResolve (c : CoreId) (addr target : W64) (taken : Bool) (kind : BranchKind) (wrong : List (Bool × W64))
  | xlinvAccept (c : CoreId)
  | waitEnd (c : CoreId)
  | entryAbort (c : CoreId) (src : Option WakeSrc)
  | coreWake (c : CoreId)
  | packageWake (src : WakeSrc)
  | rankFillDone (n : Fin 16) (fails : List (BitVec 46))
  | aonTimerWake
  | debugHaltRequest (c : CoreId)
  | interruptEntry (c : CoreId) (a : Option InFlight)
  | entryResponse (c : CoreId) (r : Response)
  | storeDrain (c : CoreId)
  | partialOverlapRelease (c : CoreId)
  | ldSsbRedo (c : CoreId)
  | lineFill (c : CoreId) (line : BitVec 46)
  | vectorComplete (c : CoreId)
  | wideIdleExpiry (c : CoreId)
  -- always-on domain, clocks, resets (01, 18)
  | vaonPowerOn
  | vaonLoss
  | pwrgoodRise (flashOctal testEn : Bool)
  | pwrgoodFall
  | pllLock
  | pllLockLoss
  | clockSwitchDone (c : CoreId)
  | startup (i : BootIn)
  | railEnableTimeout (r : RailFail)
  | resetNAssert
  | resetNRelease
  | warmResetRestart
  | thermalHold (x : Sensor)
  | thermalRelease (x : HoldScope)
  | thermtrip (x : Sensor)
  -- the Louvre voltage link (01)
  | ping (rail : Fin 9) (fails : List LinkFail)
  | setVid (rail : Fin 9) (code : Byte) (fails : List LinkFail)
  | setSlew (rail : Option (Fin 9)) (slew : BitVec 4) (fails : List LinkFail)
  | enable (rail : Option (Fin 9)) (on discharge : Bool) (fails : List LinkFail)
  | setMode (rail : Option (Fin 9)) (mode : BitVec 2) (fails : List LinkFail)
  | readVout (rail : Fin 9) (mv : W16) (fails : List LinkFail)
  | readIout (rail : Fin 9) (units : W16) (fails : List LinkFail)
  | readTemp (rail : Fin 9) (halfDeg : W16) (fails : List LinkFail)
  | readStatus (rail : Fin 9) (fails : List LinkFail)
  | clearStatus (rail : Option (Fin 9)) (mask : W16) (fails : List LinkFail)
  | readId (rail : Fin 9) (id : W16) (fails : List LinkFail)
  | lvlAlertSweep (raised : List (Fin 9 × BitVec 6)) (deaf : List SweepFail)
  | raiseVoutOk (die : Fin 4) (fails : List LinkFail)
  | raiseFail (die : Fin 4) (fails : List LinkFail)
  | raiseRetry (die : Fin 4)
  -- pins and the management bus (01, 12)
  | gpioEdge (pin : Fin 16) (level : Bool)
  | wakeNFall
  | mgmtAddressMatch
  | mgmtStatus
  | mgmtRecordRead (offset : W32)
  | mgmtQuoteRequest (nonce : BitVec 256)
  | mgmtQuoteRead (offset : W32)
  | mgmtCertRead (offset : W32)
  -- homes, snoops, far work (07)
  | readShared (c : CoreId) (line : BitVec 46) (l : L1)
  | readUnique (c : CoreId) (line : BitVec 46)
  | upgrade (c : CoreId) (line : BitVec 46)
  | claimLine (c : CoreId) (line : BitVec 46)
  | writeFull (c : CoreId) (line : BitVec 46) (data : W512)
  | writeBack (c : CoreId) (line : BitVec 46)
  | evict (c : CoreId) (line : BitVec 46)
  | snpShared (c : CoreId) (line : BitVec 46)
  | snpUnique (c : CoreId) (line : BitVec 46)
  | snpInv (c : CoreId) (line : BitVec 46)
  | snoopResponse (c : CoreId) (line : BitVec 46)
  | ownershipProbe (c : CoreId) (line : BitVec 46)
  | victimAccepted (slice : Fin 96) (line : BitVec 46)
  | farAtomic (c : CoreId)
  | llcLockWrite (n : Fin 97) (v : W64) (x : Attr)
  | waymaskWrite (n : Fin 97) (k : Fin 16) (v : W64) (x : Attr)
  | evcntRead (n : Fin 97) (x : Attr)
  -- mesh and registers (08, 10)
  | replayRequest (stop : Fin 132) (dir : Fin 4) (again : Bool) (lanes : List (Fin 3 × Fin 64))
  | meshClockChange (slow : Bool) (x : Attr)
  | registerWrite (addr : Pa) (wd : Width) (v : W64) (x : Attr)
  | elogd0Read (r : Ring) (wd : Width) (x : Attr)
  | elogptrRdWrite (r : Ring) (v : W64) (x : Attr)
  | runClear (b : Block) (x : Attr)
  | runSet (b : Block) (x : Attr)
  | blockQuiesced (b : Block)
  | windowWrite (w : Fin 13) (v : W64) (x : Attr)
  | memregWrite (stop : Fin 132) (v : W64) (x : Attr)
  | regulatorToken (stop : Fin 132)
  | vaultRequest (line : BitVec 46) (o : MemOp) (x : Attr)
  | vaultRemapWrite (n : Fin 96) (k : Fin 8) (v : W64) (x : Attr)
  | vaultRemapDone (n : Fin 96) (k : Fin 8)
  -- memory controllers (09, 10)
  | mcRead (line : BitVec 46) (x : Attr)
  | mcWrite (line : BitVec 46) (data : W512) (poison : BitVec 8) (x : Option Attr)
  | writeQueueDrain (n : Fin 16)
  | uethrWindowEnd (n : Fin 16)
  | refreshDue (n : Fin 16) (rank : Fin 8) (bank : Fin 4) (busy : Bool)
  | zqCalibration (n : Fin 16) (rank : Fin 8)
  | dimmThermalRead (n : Fin 16) (readings : List (Option Nat))
  | chnAlert (n : Fin 16) (line : BitVec 46)
  | baddevWrite (n : Fin 16) (s : Fin 2) (v : W64) (x : Attr)
  | mcRemapWrite (n : Fin 16) (k : Fin 16) (v : W64) (x : Attr)
  | remapDone (n : Fin 16) (k : Fin 16)
  | scrubRead (b : Block) (sub : Bool)
  | scrubOverdue (b : Block)
  -- offload (13)
  | create (k : Fin 4) (v : Fin 256) (x : Attr)
  | victlEnable (k : Fin 4) (v : Fin 256) (en : Bool) (x : Attr)
  | victlReset (k : Fin 4) (v : Fin 256) (x : Attr)
  | instanceResetDone (k : Fin 4) (v : Fin 256)
  | destroy (k : Fin 4) (v : Fin 256) (x : Attr)
  | portalSubmit (k : Fin 4) (v : Fin 256) (offset : BitVec 12) (data : W512) (x : Attr)
  | laneSlot (k : Fin 4) (lane : Fin 8)
  | compress (k : Fin 4) (lane : Fin 8) (cycles : Nat)
  | decompress (k : Fin 4) (lane : Fin 8) (cycles : Nat)
  | crc (k : Fin 4) (lane : Fin 8) (cycles : Nat)
  | completionRecord (k : Fin 4) (lane : Fin 8)
  -- Louvre (14)
  | grantWrite (c : CoreId) (level wide : BitVec 4)
  | grantStale (c : CoreId)
  | preqWrite (c : CoreId) (level : BitVec 4) (x : Attr)
  | ownerCapWindow (o : Owner) (level : BitVec 4) (power : Nat)
  | energyTick (other : Nat)
  | blkpwrWrite (v : W64) (x : Attr)
  | corestartWrite (i : Fin 3) (v : W64) (x : Attr)
  | coreStart (c : CoreId)
  | tilerst (tile : BitVec 7) (x : Attr)
  | tilerstDone
  -- worlds (11)
  | swdStart (x : Attr)
  | swdkick (v : W64) (x : Attr)
  | swdHalf
  | swdExpiry
  | tlockWrite (x : Attr)
  | ownershipCacheFill (a : OwnCache) (pa : Pa)
  -- Wicket mailbox (12)
  | info (ch : Fin 2)
  | extend (ch : Fin 2)
  | romCheck (ch : Fin 2)
  | seal (ch : Fin 2)
  | chainAreaWrite
  | quote (ch : Fin 2)
  | logRead (ch : Fin 2)
  | certRead (ch : Fin 2)
  | keyGen (ch : Fin 2)
  | keyClear (ch : Fin 2)
  | healthAdd (ch : Fin 2)
  | healthRead (ch : Fin 2)
  | healthDrop (ch : Fin 2)
  | svnCommit (ch : Fin 2) (blown : Bool)
  | revoke (ch : Fin 2) (blown : Bool)
  | ownerKey (ch : Fin 2) (blown : Bool)
  | reset (ch : Fin 2)
  | badcmd (ch : Fin 2)
  | drbgReseed
  | entropyTestFail
  -- PCIe, CXL, IOMMU (15)
  | completion (k : Fin 8) (tag : Nat) (r : Response) (ide : Option (BitVec 8)) (macOk : Bool)
  | completionTimeout (k : Fin 8) (tag : Nat)
  | inboundRequest (r : Inbound)
  | doorbell (rc : Fin 8) (p : Fin 4) (sid : W16) (data : W32) (ide : Option (BitVec 8)) (macOk : Bool)
  | cxlMemRequest (k : Fin 4) (line : BitVec 46) (o : MemOp) (owner : Owner) (timeout devPoison : Bool)
  | pmeMessage (k : Fin 8) (p : Fin 4)
  | linkUp (k : Fin 8) (p : Fin 4) (width : BitVec 5) (speed : BitVec 3) (cxl : Bool)
  | downevt (k : Fin 8) (p : Fin 4)
  | uncontain (k : Fin 8) (p : Fin 4) (x : Attr)
  | pmeto (k : Fin 8) (p : Fin 4) (x : Attr)
  | pmeToAck (k : Fin 8) (p : Fin 4)
  | pmetoTimeout (k : Fin 8) (p : Fin 4)
  | hotplugPoll (k : Fin 8) (p : Fin 4) (pins : Option (BitVec 8))
  | perstRelease (k : Fin 8) (p : Fin 4)
  | ioinv (b : Block) (sid : W16) (all : Bool) (x : Attr)
  | ioinvDone (b : Block)
  | sowninv (k : Fin 8) (sid : W16) (all : Bool) (x : Attr)
  | sresume (k : Fin 8) (sid : W16) (all : Bool) (x : Attr)
  | keyreq (k : Fin 8) (s : Fin 8) (x : Attr)
  | keyoutRead (k : Fin 8) (s : Fin 8) (x : Attr)
  -- interrupts and timers (16)
  | sourceEvent (n : BitVec 12)
  | presentSource (c : CoreId) (slot : Fin 3)
  | displacedSource (c : CoreId) (slot : Fin 3)
  | swint (n : BitVec 12) (x : Attr)
  | timerReached (c : CoreId) (t : Fin 3)
  | nwdStart (x : Attr)
  | nwdkick (v : W64) (x : Attr)
  | nwdStage1
  | nwdStage2
  -- performance monitoring (17)
  | pmcOverflow (c : CoreId) (n : Fin 8)
  | sampleTaken (c : CoreId) (iaddr daddr paddr target : W64) (latency : W32) (source : BitVec 3)
  | sampleRecordWrite (c : CoreId)
  | pmWindowEnd (stop : Fin 132)
  -- the rest
  | sowninvDone (k : Fin 8)
  | keyrdy (k : Fin 8) (s : Fin 8)
  | selfRefreshExit
  | lanethrWindowEnd
  | debugResume (c : CoreId)
  | debugAccess (c : CoreId) (addr : Pa) (wd : Width) (write : Bool) (v : W64)
  | transientUpset (u : Upset)
  | supplyOutOfRange (rail : Byte)
  | rcRead (r : RcReg) (wd : Width) (x : Attr)
  | aspmTransition (k : Fin 8) (p : Fin 4) (link : BitVec 3)
deriving DecidableEq, Repr

end Sys2Proof
end

