-- ==== Sys2Proof/Machine/Bits.lean ====
section
/-! DEFINITION. Finite tables, bit fields, sign extension and byte order: the plain helpers every meaning uses. -/

namespace Sys2Proof.Machine

/-- A finite table by number. -/
abbrev Tab (α : Type) := List (Nat × α)

/-- The entry of a table at `k`. -/
def look {α : Type} : Tab α → Nat → Option α
  | [], _ => none
  | (j, w) :: t, k => if k = j then some w else look t k

/-- The entry at `k`, or `d`. -/
def lookD {α : Type} (d : α) (t : Tab α) (k : Nat) : α := (look t k).getD d

/-- The table with `v` at `k`; a table in rising order stays in rising order. -/
def put {α : Type} : Tab α → Nat → α → Tab α
  | [], k, v => [(k, v)]
  | (j, w) :: t, k, v =>
    if k < j then (k, v) :: (j, w) :: t
    else if k = j then (k, v) :: t
    else (j, w) :: put t k v

/-- The table without an entry at `k`. -/
def del {α : Type} (t : Tab α) (k : Nat) : Tab α := t.filter (fun p => p.1 != k)

/-- The table with `v` at `k`, where a value equal to the default is not listed. -/
def store {α : Type} [DecidableEq α] (d : α) (t : Tab α) (k : Nat) (v : α) : Tab α :=
  if v = d then del t k else put t k v

/-- Bits `lo` to `lo + w - 1` as a number. -/
def fld {n : Nat} (x : BitVec n) (lo w : Nat) : Nat := (x.toNat >>> lo) % 2 ^ w

/-- `x` with bits `lo` to `lo + w - 1` set to `v`. -/
def setFld {n : Nat} (x : BitVec n) (lo w v : Nat) : BitVec n :=
  (x &&& ~~~(BitVec.ofNat n (2 ^ w - 1) <<< lo)) ||| (BitVec.ofNat n (v % 2 ^ w) <<< lo)

/-- Bit `i`. -/
def bitAt {n : Nat} (x : BitVec n) (i : Nat) : Bool := x.getLsbD i

/-- `x` with bit `i` set to `b`. -/
def setBit {n : Nat} (x : BitVec n) (i : Nat) (b : Bool) : BitVec n :=
  if b then x ||| (1#n <<< i) else x &&& ~~~(1#n <<< i)

/-- One bit from a truth value. -/
def b2n (b : Bool) : Nat := if b then 1 else 0

/-- A truth value as a 64-bit word. -/
def b2w (b : Bool) : W64 := if b then 1 else 0

/-- The low `w` bits of `x`, sign-extended to 64. -/
def sx {n : Nat} (w : Nat) (x : BitVec n) : W64 := (x.setWidth w).signExtend 64

/-- The low `w` bits of `x`, zero-extended to 64. -/
def zx {n : Nat} (w : Nat) (x : BitVec n) : W64 := (x.setWidth w).setWidth 64

/-- The first `k` bits as truth values, bit 0 first. -/
def bitList {n : Nat} (x : BitVec n) (k : Nat) : List Bool := (List.range k).map x.getLsbD

/-- Number of one bits. -/
def popc {n : Nat} (x : BitVec n) : Nat := ((bitList x n).filter id).length

/-- Position of the lowest one bit, or `n`. -/
def ctz {n : Nat} (x : BitVec n) : Nat := ((bitList x n).takeWhile (fun b => !b)).length

/-- Number of zero bits above the highest one bit. -/
def clz {n : Nat} (x : BitVec n) : Nat := ((bitList x n).reverse.takeWhile (fun b => !b)).length

/-- Exclusive or of all bits. -/
def parity {n : Nat} (x : BitVec n) : Bool := popc x % 2 == 1

/-- A sum that stops at `2 ^ w - 1`. -/
def satAdd (w x k : Nat) : Nat := min (x + k) (2 ^ w - 1)

/-- The number a list of bytes spells, lowest byte first. -/
def leNat : List Byte → Nat
  | [] => 0
  | b :: t => b.toNat + 256 * leNat t

/-- `k` bytes of a number, lowest first. -/
def leBytes : Nat → Nat → List Byte
  | 0, _ => []
  | k + 1, x => BitVec.ofNat 8 x :: leBytes k (x / 256)

/-- `k` bytes of a number, highest first. -/
def beBytes (k x : Nat) : List Byte := (leBytes k x).reverse

/-- The number a list of bytes spells, highest byte first. -/
def beNat (l : List Byte) : Nat := leNat l.reverse

/-- Byte `i` of a wide value. -/
def byteOf {n : Nat} (x : BitVec n) (i : Nat) : Byte := x.extractLsb' (8 * i) 8

/-- The bits selected byte by byte: byte `i` of `new` where bit `i` of `en` is set, else of `old`. -/
def mergeBytes {n : Nat} (old new : BitVec n) (en : Nat) : BitVec n :=
  let m := BitVec.ofNat n (leNat ((List.range (n / 8)).map (fun i => if en.testBit i then 0xFF#8 else 0#8)))
  (old &&& ~~~m) ||| (new &&& m)

/-- Byte enables for `len` bytes from byte `off`. -/
def enables (off len : Nat) : Nat := (2 ^ len - 1) <<< off

/-- One bit per 8-byte word of a line that has at least one of the enabled bytes. -/
def wordsOf (en : Nat) : BitVec 8 :=
  BitVec.ofNat 8 (((List.range 8).map (fun i => if (en >>> (8 * i)) % 256 = 0 then 0 else 2 ^ i)).sum)

/-- One bit per 8-byte word of a line whose bytes are all enabled. -/
def wholeWords (en : Nat) : BitVec 8 :=
  BitVec.ofNat 8 (((List.range 8).map (fun i => if (en >>> (8 * i)) % 256 = 255 then 2 ^ i else 0)).sum)

/-- The bytes of an ASCII text. -/
def ascii (t : String) : List Byte := t.toList.map (fun c => BitVec.ofNat 8 c.toNat)

/-- Element `i` of a list, or `d`. -/
def nthD {α : Type} (d : α) (l : List α) (i : Nat) : α := (l[i]?).getD d

/-- The list with element `i` replaced. -/
def setNth {α : Type} (l : List α) (i : Nat) (v : α) : List α := l.set i v

/-- `n` copies. -/
def copies {α : Type} (n : Nat) (v : α) : List α := List.replicate n v


end Sys2Proof.Machine
end

