-- ==== Sys2Proof/Machine/Arith.lean ====
section
/-! DEFINITION. Integer arithmetic at any width (chapter 03 Tables 3 and 4, chapter 04 Table 3), carry-less products and CRC-32C. -/

namespace Sys2Proof.Machine

/-- Signed quotient rounded toward zero, with the corners of R84. -/
def divS {n : Nat} (a b : BitVec n) : BitVec n :=
  if b = 0 then BitVec.allOnes n else BitVec.ofInt n (a.toInt.tdiv b.toInt)

/-- Unsigned quotient, with the corner of R84. -/
def divU {n : Nat} (a b : BitVec n) : BitVec n :=
  if b = 0 then BitVec.allOnes n else BitVec.ofNat n (a.toNat / b.toNat)

/-- Remainder with the sign of `a`, with the corners of R84. -/
def remS {n : Nat} (a b : BitVec n) : BitVec n :=
  if b = 0 then a else BitVec.ofInt n (a.toInt.tmod b.toInt)

def remU {n : Nat} (a b : BitVec n) : BitVec n :=
  if b = 0 then a else BitVec.ofNat n (a.toNat % b.toNat)

/-- High half of a product of integers. -/
def highHalf (n : Nat) (p : Int) : BitVec n := BitVec.ofInt n (p / 2 ^ n)

def minS {n : Nat} (a b : BitVec n) : BitVec n := if a.toInt ≤ b.toInt then a else b
def maxS {n : Nat} (a b : BitVec n) : BitVec n := if a.toInt ≤ b.toInt then b else a
def minU {n : Nat} (a b : BitVec n) : BitVec n := if a.toNat ≤ b.toNat then a else b
def maxU {n : Nat} (a b : BitVec n) : BitVec n := if a.toNat ≤ b.toNat then b else a

/-- The eight bytes reversed. -/
def rev8 (a : W64) : W64 := BitVec.ofNat 64 (beNat (leBytes 8 a.toNat))

/-- OP other than division (R83). `d` is gd before. -/
def opVal (fn : OpFn) (a b d : W64) : W64 :=
  let sh := b.toNat % 64
  match fn with
  | .add => a + b
  | .sub => a - b
  | .and => a &&& b
  | .or => a ||| b
  | .xor => a ^^^ b
  | .andn => a &&& ~~~b
  | .orn => a ||| ~~~b
  | .xnor => ~~~(a ^^^ b)
  | .sll => a <<< sh
  | .srl => a >>> sh
  | .sra => a.sshiftRight sh
  | .ror => a.rotateRight sh
  | .slt => b2w (decide (a.toInt < b.toInt))
  | .sltu => b2w (decide (a.toNat < b.toNat))
  | .min => minS a b
  | .max => maxS a b
  | .minu => minU a b
  | .maxu => maxU a b
  | .cmovz => if b = 0 then a else d
  | .cmovnz => if b = 0 then d else a
  | .mul => a * b
  | .mulxSs => highHalf 64 (a.toInt * b.toInt)
  | .mulxUu => highHalf 64 (a.toNat * b.toNat)
  | .mulxSu => highHalf 64 (a.toInt * b.toNat)
  | .clz => BitVec.ofNat 64 (clz a)
  | .ctz => BitVec.ofNat 64 (ctz a)
  | .popc => BitVec.ofNat 64 (popc a)
  | .rev8 => rev8 a
  | .sextB => sx 8 a
  | .sextH => sx 16 a
  | .sextW => sx 32 a
  | .zextW => zx 32 a

/-- Division (R84). -/
def divVal (fn : DivFn) (a b : W64) : W64 :=
  match fn with
  | .div => divS a b
  | .divu => divU a b
  | .rem => remS a b
  | .remu => remU a b

/-- OPW (R85): on the low halves, sign-extended. -/
def opwVal (fn : OpwFn) (a b : W64) : W64 :=
  let x : W32 := a.setWidth 32
  let y : W32 := b.setWidth 32
  let sh := y.toNat % 32
  let r : W32 :=
    match fn with
    | .addw => x + y
    | .subw => x - y
    | .sllw => x <<< sh
    | .srlw => x >>> sh
    | .sraw => x.sshiftRight sh
    | .mulw => x * y
    | .divw => divS x y
    | .divuw => divU x y
    | .remw => remS x y
    | .remuw => remU x y
  r.signExtend 64

/-- Carry-less product, `n` bits by `n` bits. -/
def clmulWide {n : Nat} (a b : BitVec n) : BitVec (2 * n) :=
  (List.range n).foldl (fun acc i => if b.getLsbD i then acc ^^^ (a.setWidth (2 * n) <<< i) else acc) 0

def clmulLo (a b : W64) : W64 := (clmulWide a b).setWidth 64
def clmulHi (a b : W64) : W64 := (clmulWide a b).extractLsb' 64 64

/-- One bit of the reflected CRC-32C division (R123). -/
def crcBit (crc : W32) : W32 := if crc.getLsbD 0 then (crc >>> 1) ^^^ 0x82F63B78#32 else crc >>> 1

/-- One byte of CRC-32C (R123). -/
def crcByte (crc : W32) (b : Byte) : W32 :=
  (List.range 8).foldl (fun c _ => crcBit c) (crc ^^^ b.setWidth 32)

/-- CRC-32C continued over bytes. -/
def crcBytes (crc : W32) (l : List Byte) : W32 := l.foldl crcByte crc

def crcCount : CrcLen → Nat
  | .n1 => 1 | .n2 => 2 | .n4 => 4 | .n8 => 8

end Sys2Proof.Machine
end

