-- ==== Sys2Proof/Machine/Crypto.lean ====
section
/-! DEFINITION. SHA-256 (FIPS 180-4), HMAC-SHA-256, AES rounds (FIPS 197), CRC-32 and Adler-32: what the vector rounds (R146,
R147), Wicket (chapter 12) and the offload engines (chapter 13) compute. -/

namespace Sys2Proof.Machine

/-! ## SHA-256 -/

def shaK : List W32 :=
  [0x428A2F98#32, 0x71374491#32, 0xB5C0FBCF#32, 0xE9B5DBA5#32, 0x3956C25B#32, 0x59F111F1#32, 0x923F82A4#32, 0xAB1C5ED5#32] ++
  [0xD807AA98#32, 0x12835B01#32, 0x243185BE#32, 0x550C7DC3#32, 0x72BE5D74#32, 0x80DEB1FE#32, 0x9BDC06A7#32, 0xC19BF174#32] ++
  [0xE49B69C1#32, 0xEFBE4786#32, 0x0FC19DC6#32, 0x240CA1CC#32, 0x2DE92C6F#32, 0x4A7484AA#32, 0x5CB0A9DC#32, 0x76F988DA#32] ++
  [0x983E5152#32, 0xA831C66D#32, 0xB00327C8#32, 0xBF597FC7#32, 0xC6E00BF3#32, 0xD5A79147#32, 0x06CA6351#32, 0x14292967#32] ++
  [0x27B70A85#32, 0x2E1B2138#32, 0x4D2C6DFC#32, 0x53380D13#32, 0x650A7354#32, 0x766A0ABB#32, 0x81C2C92E#32, 0x92722C85#32] ++
  [0xA2BFE8A1#32, 0xA81A664B#32, 0xC24B8B70#32, 0xC76C51A3#32, 0xD192E819#32, 0xD6990624#32, 0xF40E3585#32, 0x106AA070#32] ++
  [0x19A4C116#32, 0x1E376C08#32, 0x2748774C#32, 0x34B0BCB5#32, 0x391C0CB3#32, 0x4ED8AA4A#32, 0x5B9CCA4F#32, 0x682E6FF3#32] ++
  [0x748F82EE#32, 0x78A5636F#32, 0x84C87814#32, 0x8CC70208#32, 0x90BEFFFA#32, 0xA4506CEB#32, 0xBEF9A3F7#32, 0xC67178F2#32]

def shaH0 : List W32 := [0x6A09E667#32, 0xBB67AE85#32, 0x3C6EF372#32, 0xA54FF53A#32, 0x510E527F#32, 0x9B05688C#32, 0x1F83D9AB#32, 0x5BE0CD19#32]

def rotr (x : W32) (k : Nat) : W32 := x.rotateRight k
/-- σ0, σ1, Σ0 and Σ1 of FIPS 180-4. -/
def sig0 (x : W32) : W32 := rotr x 7 ^^^ rotr x 18 ^^^ (x >>> 3)
def sig1 (x : W32) : W32 := rotr x 17 ^^^ rotr x 19 ^^^ (x >>> 10)
def bigSig0 (x : W32) : W32 := rotr x 2 ^^^ rotr x 13 ^^^ rotr x 22
def bigSig1 (x : W32) : W32 := rotr x 6 ^^^ rotr x 11 ^^^ rotr x 25
def chf (e f g : W32) : W32 := (e &&& f) ^^^ (~~~e &&& g)
def maj (a b c : W32) : W32 := (a &&& b) ^^^ (a &&& c) ^^^ (b &&& c)

/-- The eight working variables. -/
structure ShaSt where
  a : W32
  b : W32
  c : W32
  d : W32
  e : W32
  f : W32
  g : W32
  h : W32
deriving DecidableEq, Repr

/-- One round with W + K given. -/
def shaRound (s : ShaSt) (wk : W32) : ShaSt :=
  let t1 := s.h + bigSig1 s.e + chf s.e s.f s.g + wk
  let t2 := bigSig0 s.a + maj s.a s.b s.c
  ⟨t1 + t2, s.a, s.b, s.c, s.d + t1, s.e, s.f, s.g⟩

/-- The schedule, newest word first, extended by `n` words. -/
def shaExtend : Nat → List W32 → List W32
  | 0, w => w
  | n + 1, w => shaExtend n ((sig1 (nthD 0 w 1) + nthD 0 w 6 + sig0 (nthD 0 w 14) + nthD 0 w 15) :: w)

/-- One block compressed into a hash state. -/
def shaBlock (h : List W32) (block : List Byte) : List W32 :=
  let w := (List.range 16).map (fun i => BitVec.ofNat 32 (beNat ((block.drop (4 * i)).take 4)))
  let sched := (shaExtend 48 w.reverse).reverse
  let s0 : ShaSt := ⟨nthD 0 h 0, nthD 0 h 1, nthD 0 h 2, nthD 0 h 3, nthD 0 h 4, nthD 0 h 5, nthD 0 h 6, nthD 0 h 7⟩
  let s := (List.zipWith (· + ·) sched shaK).foldl shaRound s0
  List.zipWith (· + ·) h [s.a, s.b, s.c, s.d, s.e, s.f, s.g, s.h]

/-- Blocks of 64 bytes; `fuel` bounds their number. -/
def shaBlocks : Nat → List W32 → List Byte → List W32
  | 0, h, _ => h
  | k + 1, h, m => if m.length < 64 then h else shaBlocks k (shaBlock h (m.take 64)) (m.drop 64)

/-- Padding of FIPS 180-4. -/
def shaPad (m : List Byte) : List Byte :=
  m ++ [0x80#8] ++ copies ((119 - m.length % 64) % 64) 0#8 ++ beBytes 8 (8 * m.length)

/-- SHA-256 of a message, as 32 bytes. -/
def sha256 (m : List Byte) : List Byte :=
  let p := shaPad m
  ((shaBlocks (p.length / 64) shaH0 p).map (fun (w : W32) => beBytes 4 w.toNat)).flatten

/-- A digest as a 256-bit value, first byte lowest. -/
def digest (m : List Byte) : BitVec 256 := BitVec.ofNat 256 (leNat (sha256 m))

/-- HMAC-SHA-256. -/
def hmac (key msg : List Byte) : List Byte :=
  let k := if key.length > 64 then sha256 key else key
  let k := k ++ copies (64 - k.length) 0#8
  sha256 (k.map (· ^^^ 0x5C#8) ++ sha256 (k.map (· ^^^ 0x36#8) ++ msg))

/-! ## Derived keys (R349) -/

/-- KDF of R349. -/
def kdf (key : List Byte) (label : String) (context : List Byte) (len : Nat) : List Byte :=
  ((List.range ((len + 31) / 32)).flatMap (fun i =>
    hmac key (beBytes 4 (i + 1) ++ ascii label ++ [0#8] ++ context ++ beBytes 4 (8 * len)))).take len

/-- The memory key of an owner and generation under a BOOTKEY (R349 Table 2, R358). -/
def memoryKey (bootKey : BitVec 256) (o g : Nat) : BitVec 512 :=
  BitVec.ofNat 512 (leNat (kdf (leBytes 32 bootKey.toNat) "Iaton memory key" (leBytes 2 o ++ leBytes 2 g) 64))

/-! ## AES -/

/-- Multiplication by x in GF(2^8) of AES. -/
def xtime (b : Byte) : Byte := (b <<< 1) ^^^ (if b.getLsbD 7 then 0x1B#8 else 0)

/-- Product in GF(2^8). -/
def gmul (a b : Byte) : Byte :=
  ((List.range 8).foldl (fun (p : Byte × Byte) i => ((if b.getLsbD i then p.1 ^^^ p.2 else p.1), xtime p.2)) (0, a)).1

/-- Inverse in GF(2^8), 0 for 0: the 254th power. -/
def ginv (a : Byte) : Byte :=
  let a2 := gmul a a
  let a4 := gmul a2 a2
  let a8 := gmul a4 a4
  let a16 := gmul a8 a8
  let a32 := gmul a16 a16
  let a64 := gmul a32 a32
  let a128 := gmul a64 a64
  gmul a128 (gmul a64 (gmul a32 (gmul a16 (gmul a8 (gmul a4 a2)))))

/-- The S-box of FIPS 197. -/
def sbox (a : Byte) : Byte :=
  let b := ginv a
  b ^^^ b.rotateLeft 1 ^^^ b.rotateLeft 2 ^^^ b.rotateLeft 3 ^^^ b.rotateLeft 4 ^^^ 0x63#8

/-- The inverse S-box. -/
def invSbox (a : Byte) : Byte :=
  ginv (a.rotateLeft 1 ^^^ a.rotateLeft 3 ^^^ a.rotateLeft 6 ^^^ 0x05#8)

/-- ShiftRows: byte r + 4c moves from column c + r; `inv` the other way. -/
def shiftRows (inv : Bool) (l : List Byte) : List Byte :=
  (List.range 16).map (fun i => nthD 0 l (i % 4 + 4 * ((i / 4 + (if inv then 4 - i % 4 else i % 4)) % 4)))

/-- One column times a circulant of four coefficients. -/
def mixCol (k : List Byte) (c : List Byte) : List Byte :=
  (List.range 4).map (fun r => (List.range 4).foldl (fun acc j => acc ^^^ gmul (nthD 0 k ((j + 4 - r) % 4)) (nthD 0 c j)) 0)

def mixColumns (inv : Bool) (l : List Byte) : List Byte :=
  let k : List Byte := if inv then [0x0E, 0x0B, 0x0D, 0x09] else [2, 3, 1, 1]
  ((List.range 4).map (fun c => mixCol k ((l.drop (4 * c)).take 4))).flatten

/-- The functions of major 0x4A on one block of 16 bytes (R147). -/
def aesFn (fn : Nat) (state key : List Byte) : List Byte :=
  match fn with
  | 0 => List.zipWith (· ^^^ ·) (mixColumns false (shiftRows false (state.map sbox))) key
  | 1 => List.zipWith (· ^^^ ·) (shiftRows false (state.map sbox)) key
  | 2 => List.zipWith (· ^^^ ·) (mixColumns true (shiftRows true (state.map invSbox))) key
  | 3 => List.zipWith (· ^^^ ·) (shiftRows true (state.map invSbox)) key
  | 4 => mixColumns true key
  | _ => key.map sbox

/-- One word of the AES-256 key schedule, from the words before it, newest first (FIPS 197). -/
def aesWord (i : Nat) (w : List (List Byte)) : List Byte :=
  let t := nthD [] w 0
  let t :=
    if i % 8 = 0 then
      List.zipWith (· ^^^ ·) ((t.drop 1 ++ t.take 1).map sbox) [(List.range (i / 8 - 1)).foldl (fun r _ => xtime r) 1, 0, 0, 0]
    else if i % 8 = 4 then t.map sbox
    else t
  List.zipWith (· ^^^ ·) (nthD [] w 7) t

/-- The 60 words of the schedule of a 32-byte key. -/
def aesSchedule (key : List Byte) : List (List Byte) :=
  ((List.range 52).foldl (fun w i => aesWord (i + 8) w :: w) ((List.range 8).map (fun i => (key.drop (4 * i)).take 4)).reverse).reverse

/-- Round key `r` of a schedule. -/
def roundKey (w : List (List Byte)) (r : Nat) : List Byte := ((w.drop (4 * r)).take 4).flatten

def xorBytes (a b : List Byte) : List Byte := List.zipWith (· ^^^ ·) a b

/-- AES-256 of one block. -/
def aesEncrypt (w : List (List Byte)) (block : List Byte) : List Byte :=
  let mid := (List.range 13).foldl (fun x i => aesFn 0 x (roundKey w (i + 1))) (xorBytes block (roundKey w 0))
  aesFn 1 mid (roundKey w 14)

/-- Its inverse, as the equivalent inverse cipher of FIPS 197. -/
def aesDecrypt (w : List (List Byte)) (block : List Byte) : List Byte :=
  let mid := (List.range 13).foldl (fun x i => aesFn 2 x (aesFn 4 [] (roundKey w (13 - i)))) (xorBytes block (roundKey w 14))
  aesFn 3 mid (roundKey w 0)

/-- A tweak multiplied by α in GF(2^128), first byte lowest (IEEE 1619). -/
def tweakNext (t : List Byte) : List Byte :=
  let n := 2 * leNat t
  leBytes 16 (if n < 2 ^ 128 then n else (n - 2 ^ 128) ^^^ 0x87)

/-- AES-256-XTS over a 64-byte data unit whose tweak is `unit` (R289): the first 32 bytes of `key` are K1, the next K2. -/
def xts (enc : Bool) (key : List Byte) (unit : Nat) (data : List Byte) : List Byte :=
  let w := aesSchedule (key.take 32)
  let t0 := aesEncrypt (aesSchedule (key.drop 32)) (leBytes 16 unit)
  ((List.range 4).foldl (fun (p : List Byte × List Byte) j =>
    let x := xorBytes ((data.drop (16 * j)).take 16) p.2
    (p.1 ++ xorBytes (if enc then aesEncrypt w x else aesDecrypt w x) p.2, tweakNext p.2)) ([], t0)).1

/-! ## Check sums of the container formats -/

/-- CRC-32 of gzip (RFC 1952), reflected polynomial 0xEDB88320. -/
def crc32 (l : List Byte) : W32 :=
  ~~~(l.foldl (fun (c : W32) b =>
    (List.range 8).foldl (fun (c : W32) _ => if c.getLsbD 0 then (c >>> 1) ^^^ 0xEDB88320#32 else c >>> 1)
      (c ^^^ b.setWidth 32)) 0xFFFFFFFF#32)

/-- Adler-32 of zlib (RFC 1950). -/
def adler32 (l : List Byte) : W32 :=
  let (a, b) := l.foldl (fun (p : Nat × Nat) (x : Byte) => ((p.1 + x.toNat) % 65521, (p.2 + p.1 + x.toNat) % 65521)) (1, 0)
  BitVec.ofNat 32 (b * 65536 + a)

/-- CRC-32C with its initial value and final exclusive or (R394). -/
def crc32c (l : List Byte) : W32 := ~~~(crcBytes 0xFFFFFFFF#32 l)

end Sys2Proof.Machine
end

