-- ==== Sys2Proof/Machine/Regs.lean ====
section
/-! DEFINITION. The on-chip register region (R259, R492): which register stands at which address, its fields, access codes,
levels and reset values, as the chapters' register tables give them. -/

namespace Sys2Proof.Machine

/-- Access codes of R6, without the S- prefix. -/
inductive AccCode
  | rw | ro | wo | w1c | w1s | rc
deriving DecidableEq, Repr

/-- Which written values a field takes; any other leaves it unchanged. -/
inductive Takes
  | any
  | nonzero
  | range (lo hi : Nat)
  | other (v : Nat)
deriving DecidableEq, Repr

/-- One field of a register. `sec` is the S- prefix (R8), `held` a held setting (R260). -/
structure Field where
  lo : Nat
  width : Nat
  acc : AccCode
  sec : Bool
  reset : Nat
  takes : Takes
  held : Bool
deriving DecidableEq, Repr

/-- The registers of the region, by block and name. -/
inductive RegId
  | mcCtl | mcStat | mcDimmcfg | mcMapcfg | mcKeep | mcBaddev | mcUethr | mcHealth | mcMap | mcCrmask | mcMapchk
  | mcEye | mcRemap | mcElogptr | mcElogovf | mcElogsel | mcElogd | mcScrubcfg | mcScrubstat | llcWaymask | llcLock
  | llcEvcnt | meshQos | meshDeny | meshMemreg | meshMemtok | meshLinkstat | meshClkcfg | meshLanethr | meshWin
  | meshWinstat | meshLatmask | meshElogptr | meshElogovf | meshElogsel | meshElogd | meshErrsig | vltCtl | vltStat
  | vltScrubcfg | vltScrubstat | vltRemap | oecCtl | oecStat | oecCfg | oecLanestat | oecPool | oecIocfg
  | oecIoctxlim | oecIoinv | oecIofltptr | oecIoflt | oecVictl | oecVicfg | oecVictx | oecViown | oecViint
  | oecVistat | oecVifault | oecViring | rcCtl | rcStat | rcCfg | rcCto | rcPortctl | rcPortstat | rcIocfg
  | rcIoctxlim | rcIoinv | rcIofltptr | rcSown | rcSowninv | rcShalt | rcSresume | rcHdmlo | rcHdmhi | rcIoflt
  | rcCkucfg | rcCkunext | rcCkuend | rcCkurunv | rcIdectl | rcIdeaddrbase | rcIdeaddrlim | rcIdekeyout | irtCtl
  | irtStat | irtCfg | irtDbaddr | irtVbase | irtSwint | irtDbrej | irtVfail | irtNwdctl | irtNwdkick | irtGpioedge
  | irtSrc | lvSleepen | lvPkgcfg | lvGpiowake | lvAoncmp | lvWakesrc | lvPkglim | lvBlkpwr | lvRlogptr | lvUncenergy
  | lvPkgenergy | lvCorestart | lvTilerst | lvRcnt | lvRlog | lvPreqself | lvPreq | lvPstat | lvOcap | lvEnergy
  | wkMbaddr | wkMbcmd | wkMbstat | wkBootstat | wkRstinfo | pmWincfg | pmWinseq | pmWinend | pmTraf | pmMem
  | ownTbase | ownTpages | ownTlock | ownClaim0 | ownClaim1 | ownSwdctl | ownSwdkick | ownDbgauth | ownDenycnt
  | ownDenylast
deriving DecidableEq, Repr

/-- Which instances of a block have the register. -/
inductive Where
  | all
  | span (lo hi : Nat)
  | regulated
  | memory
deriving DecidableEq, Repr

/-- A register: block base, stride and instances, offset, up to two repetitions (count, stride), read and write levels. -/
structure RegDef where
  id : RegId
  base : Nat
  stride : Nat
  insts : Nat
  off : Nat
  reps : List (Nat × Nat)
  at_ : Where
  level : Nat
  wlevel : Nat
  fields : List Field
deriving DecidableEq, Repr

/-- The stops with a bandwidth regulator (chapter 09, Bandwidth regulators). -/
def regulatedStop (n : Nat) : Bool :=
  n < 96 || (100 ≤ n && n ≤ 103) || (112 ≤ n && n ≤ 115) || n == 120 || n == 121 || (124 ≤ n && n ≤ 127) || n == 130 || n == 131

/-- The stops of the memory controllers (R249). -/
def memoryStop (n : Nat) : Bool :=
  (96 ≤ n && n ≤ 99) || (104 ≤ n && n ≤ 111) || (116 ≤ n && n ≤ 119)

def Where.has : Where → Nat → Bool
  | .all, _ => true
  | .span lo hi, n => lo ≤ n && n ≤ hi
  | .regulated, n => regulatedStop n
  | .memory, n => memoryStop n

/-- The registers of block MC. -/
def mcRegs : List RegDef :=
  [
   -- R260: RUN REFUSED
   ⟨.mcCtl, 0xF000000000000, 0x10000, 16, 0x0, [], .all, 2, 2,
    [⟨0, 1, .rw, false, 0x0, .any, false⟩, ⟨1, 1, .w1c, false, 0x0, .any, false⟩]⟩,
   -- R260: QUIESCED CFGERR ERRCODE
   ⟨.mcStat, 0xF000000000000, 0x10000, 16, 0x8, [], .all, 2, 2,
    [⟨0, 1, .ro, false, 0x1, .any, false⟩, ⟨1, 1, .ro, false, 0x0, .any, false⟩, ⟨8, 8, .ro, false, 0x0, .any, false⟩]⟩,
   -- R274: X8 D32 R2 H PRESENT
   ⟨.mcDimmcfg, 0xF000000000000, 0x10000, 16, 0x20, [], .all, 3, 3,
    [⟨0, 1, .rw, true, 0x0, .any, true⟩, ⟨1, 1, .rw, true, 0x0, .any, true⟩, ⟨2, 1, .rw, true, 0x0, .any, true⟩, ⟨3, 2, .rw, true, 0x0, .any, true⟩, ⟨5, 1, .rw, true, 0x0, .any, true⟩]⟩,
   -- R279: N CHBITS RKBITS SET
   ⟨.mcMapcfg, 0xF000000000000, 0x10000, 16, 0x40, [], .span 0 0, 3, 3,
    [⟨0, 6, .rw, true, 0x0, .any, true⟩, ⟨6, 3, .rw, true, 0x0, .any, true⟩, ⟨9, 2, .rw, true, 0x0, .any, true⟩, ⟨12, 4, .rw, true, 0x0, .any, true⟩]⟩,
   -- R298: KEEP
   ⟨.mcKeep, 0xF000000000000, 0x10000, 16, 0x68, [], .all, 3, 3,
    [⟨0, 2, .rw, true, 0x3, .any, false⟩]⟩,
   -- R296: DEV0 V0 DEV1 V1 DEV2 V2 DEV3 V3 DEV4 V4 DEV5 V5 DEV6 V6 DEV7 V7
   ⟨.mcBaddev, 0xF000000000000, 0x10000, 16, 0x70, [(2, 0x8)], .all, 3, 3,
    [⟨0, 4, .rw, true, 0x0, .any, false⟩, ⟨4, 1, .w1s, true, 0x0, .any, false⟩, ⟨5, 4, .rw, true, 0x0, .any, false⟩, ⟨9, 1, .w1s, true, 0x0, .any, false⟩, ⟨10, 4, .rw, true, 0x0, .any, false⟩, ⟨14, 1, .w1s, true, 0x0, .any, false⟩, ⟨15, 4, .rw, true, 0x0, .any, false⟩, ⟨19, 1, .w1s, true, 0x0, .any, false⟩, ⟨20, 4, .rw, true, 0x0, .any, false⟩, ⟨24, 1, .w1s, true, 0x0, .any, false⟩, ⟨25, 4, .rw, true, 0x0, .any, false⟩, ⟨29, 1, .w1s, true, 0x0, .any, false⟩, ⟨30, 4, .rw, true, 0x0, .any, false⟩, ⟨34, 1, .w1s, true, 0x0, .any, false⟩, ⟨35, 4, .rw, true, 0x0, .any, false⟩, ⟨39, 1, .w1s, true, 0x0, .any, false⟩]⟩,
   -- R300: UETHRESH WINDOW DEVTHRESH X8MARK
   ⟨.mcUethr, 0xF000000000000, 0x10000, 16, 0x80, [], .all, 3, 3,
    [⟨0, 16, .rw, true, 0x8, .any, false⟩, ⟨16, 8, .rw, true, 0x3C, .nonzero, false⟩, ⟨24, 16, .rw, true, 0x40, .any, false⟩, ⟨40, 1, .rw, true, 0x0, .any, false⟩]⟩,
   -- R300: TRAINFAIL UEFAIL LANE
   ⟨.mcHealth, 0xF000000000000, 0x10000, 16, 0x88, [], .all, 2, 3,
    [⟨0, 1, .w1c, false, 0x0, .any, false⟩, ⟨1, 1, .w1c, false, 0x0, .any, false⟩, ⟨8, 5, .w1c, false, 0x0, .any, false⟩]⟩,
   -- R279: MASK
   ⟨.mcMap, 0xF000000000000, 0x10000, 16, 0x100, [(13, 0x8)], .span 0 0, 3, 3,
    [⟨0, 36, .rw, true, 0x0, .any, true⟩]⟩,
   -- R279: MASK
   ⟨.mcCrmask, 0xF000000000000, 0x10000, 16, 0x180, [], .span 0 0, 3, 3,
    [⟨0, 36, .rw, true, 0x0, .any, true⟩]⟩,
   -- R279: DEP
   ⟨.mcMapchk, 0xF000000000000, 0x10000, 16, 0x188, [], .span 0 0, 3, 3,
    [⟨0, 4, .ro, true, 0xF, .any, false⟩]⟩,
   -- R274: RLEFT RWIDTH WLEFT WWIDTH RSET WSET
   ⟨.mcEye, 0xF000000000000, 0x10000, 16, 0x400, [(20, 0x8)], .all, 2, 2,
    [⟨0, 8, .ro, false, 0x0, .any, false⟩, ⟨8, 8, .ro, false, 0x0, .any, false⟩, ⟨16, 8, .ro, false, 0x0, .any, false⟩, ⟨24, 8, .ro, false, 0x0, .any, false⟩, ⟨32, 8, .ro, false, 0x0, .any, false⟩, ⟨40, 8, .ro, false, 0x0, .any, false⟩]⟩] ++
  [
   -- R315: V ADDR SPARE DONE POISONED REFUSED
   ⟨.mcRemap, 0xF000000000000, 0x10000, 16, 0x600, [(16, 0x8)], .all, 3, 3,
    [⟨0, 1, .rw, true, 0x0, .any, false⟩, ⟨1, 36, .rw, true, 0x0, .any, false⟩, ⟨37, 18, .rw, true, 0x0, .any, false⟩, ⟨55, 1, .ro, false, 0x0, .any, false⟩, ⟨56, 1, .ro, false, 0x0, .any, false⟩, ⟨57, 1, .w1c, false, 0x0, .any, false⟩]⟩,
   -- R310: WR RD COUNT
   ⟨.mcElogptr, 0xF000000000000, 0x10000, 16, 0x680, [], .all, 2, 2,
    [⟨0, 9, .ro, false, 0x0, .any, false⟩, ⟨16, 9, .rw, false, 0x0, .any, false⟩, ⟨32, 10, .ro, false, 0x0, .any, false⟩]⟩,
   -- R310: OVF
   ⟨.mcElogovf, 0xF000000000000, 0x10000, 16, 0x688, [], .all, 2, 2,
    [⟨0, 16, .rc, false, 0x0, .any, false⟩]⟩,
   -- R310: IDX
   ⟨.mcElogsel, 0xF000000000000, 0x10000, 16, 0x690, [], .all, 2, 2,
    [⟨0, 9, .rw, false, 0x0, .any, false⟩]⟩,
   -- R310: WORD
   ⟨.mcElogd, 0xF000000000000, 0x10000, 16, 0x698, [(4, 0x8)], .all, 2, 2,
    [⟨0, 64, .ro, false, 0x0, .any, false⟩]⟩,
   -- R318: EN PACE LIMIT
   ⟨.mcScrubcfg, 0xF000000000000, 0x10000, 16, 0x6C0, [], .all, 2, 2,
    [⟨0, 1, .rw, false, 0x1, .any, false⟩, ⟨1, 16, .rw, false, 0x10, .nonzero, false⟩, ⟨17, 12, .rw, false, 0x18, .nonzero, false⟩]⟩,
   -- R318: LASTLAP OVERDUE VALID
   ⟨.mcScrubstat, 0xF000000000000, 0x10000, 16, 0x6C8, [], .all, 2, 2,
    [⟨0, 32, .ro, false, 0x0, .any, false⟩, ⟨32, 1, .ro, false, 0x0, .any, false⟩, ⟨33, 1, .ro, false, 0x0, .any, false⟩]⟩]

/-- The registers of block LLC. -/
def llcRegs : List RegDef :=
  [
   -- R241: MASK0 MASK1 MASK2 MASK3
   ⟨.llcWaymask, 0xF000001000000, 0x10000, 97, 0x100, [(16, 0x8)], .all, 2, 2,
    [⟨0, 16, .rw, false, 0xFFFF, .any, false⟩, ⟨16, 16, .rw, false, 0xFFFF, .any, false⟩, ⟨32, 16, .rw, false, 0xFFFF, .any, false⟩, ⟨48, 16, .rw, false, 0xFFFF, .any, false⟩]⟩,
   -- R243: LOCKED FILLWAY FILLEN REFUSED
   ⟨.llcLock, 0xF000001000000, 0x10000, 97, 0x200, [], .all, 2, 2,
    [⟨0, 16, .rw, false, 0x0, .any, false⟩, ⟨16, 4, .rw, false, 0x0, .any, false⟩, ⟨20, 1, .rw, false, 0x0, .any, false⟩, ⟨21, 1, .w1c, false, 0x0, .any, false⟩]⟩,
   -- R248: LOCKINV PREDISP DIRRECALL LOCKREFUSE
   ⟨.llcEvcnt, 0xF000001000000, 0x10000, 97, 0x208, [], .span 0 95, 2, 2,
    [⟨0, 16, .rc, false, 0x0, .any, false⟩, ⟨16, 16, .rc, false, 0x0, .any, false⟩, ⟨32, 16, .rc, false, 0x0, .any, false⟩, ⟨48, 16, .rc, false, 0x0, .any, false⟩]⟩]

/-- The registers of block MESH. -/
def meshRegs : List RegDef :=
  [
   -- R255: C0N C0S C1N C1S
   ⟨.meshQos, 0xF000002000000, 0x1000, 133, 0x10, [], .span 0 95, 2, 2,
    [⟨0, 6, .rw, false, 0x0, .any, false⟩, ⟨8, 6, .rw, true, 0x0, .any, false⟩, ⟨16, 6, .rw, false, 0x0, .any, false⟩, ⟨24, 6, .rw, true, 0x0, .any, false⟩]⟩,
   -- R255: DENY
   ⟨.meshDeny, 0xF000002000000, 0x1000, 133, 0x18, [], .span 0 131, 2, 2,
    [⟨0, 16, .rc, false, 0x0, .any, false⟩]⟩,
   -- R288: EN RATE DEPTH
   ⟨.meshMemreg, 0xF000002000000, 0x1000, 133, 0x40, [], .regulated, 2, 2,
    [⟨0, 1, .rw, false, 0x0, .any, false⟩, ⟨4, 9, .rw, false, 0x100, (.range 1 256), false⟩, ⟨16, 12, .rw, false, 0x40, .nonzero, false⟩]⟩,
   -- R288: TOK
   ⟨.meshMemtok, 0xF000002000000, 0x1000, 133, 0x48, [], .regulated, 2, 2,
    [⟨0, 20, .ro, false, 0x4000, .any, false⟩]⟩,
   -- R258: REPLAY SPARE0 SPARE1 SPARE2 XING FAILED UNUSED
   ⟨.meshLinkstat, 0xF000002000000, 0x1000, 133, 0x100, [(4, 0x8)], .span 0 131, 2, 2,
    [⟨0, 16, .rc, false, 0x0, .any, false⟩, ⟨16, 4, .ro, false, 0x0, .any, false⟩, ⟨20, 4, .ro, false, 0x0, .any, false⟩, ⟨24, 4, .ro, false, 0x0, .any, false⟩, ⟨28, 1, .ro, false, 0x0, .any, false⟩, ⟨29, 1, .ro, false, 0x0, .any, false⟩, ⟨30, 1, .ro, false, 0x0, .any, false⟩]⟩,
   -- R262: SLOW
   ⟨.meshClkcfg, 0xF000002000000, 0x1000, 133, 0x10, [], .span 132 132, 3, 3,
    [⟨0, 1, .rw, true, 0x0, .any, false⟩]⟩,
   -- R258: THRESH WINDOW
   ⟨.meshLanethr, 0xF000002000000, 0x1000, 133, 0x20, [], .span 132 132, 2, 2,
    [⟨0, 16, .rw, false, 0x10, .any, false⟩, ⟨16, 8, .rw, false, 0x1, .nonzero, false⟩]⟩,
   -- R261: EN SIZE BASE
   ⟨.meshWin, 0xF000002000000, 0x1000, 133, 0x200, [(13, 0x8)], .span 132 132, 2, 2,
    [⟨0, 1, .rw, false, 0x0, .any, false⟩, ⟨1, 21, .rw, false, 0x0, .any, true⟩, ⟨22, 22, .rw, false, 0x0, .any, true⟩]⟩,
   -- R261: QUIESCED REFUSED ERRCODE
   ⟨.meshWinstat, 0xF000002000000, 0x1000, 133, 0x280, [], .span 132 132, 2, 2,
    [⟨0, 13, .ro, false, 0x1FFF, .any, false⟩, ⟨13, 1, .w1c, false, 0x0, .any, false⟩, ⟨16, 8, .ro, false, 0x0, .any, false⟩]⟩,
   -- R253: LAT
   ⟨.meshLatmask, 0xF000002000000, 0x1000, 133, 0x300, [], .span 132 132, 2, 2,
    [⟨0, 64, .rw, false, 0x0, .any, false⟩]⟩,
   -- R310: WR RD COUNT
   ⟨.meshElogptr, 0xF000002000000, 0x1000, 133, 0x680, [], .span 132 132, 2, 2,
    [⟨0, 9, .ro, false, 0x0, .any, false⟩, ⟨16, 9, .rw, false, 0x0, .any, false⟩, ⟨32, 10, .ro, false, 0x0, .any, false⟩]⟩,
   -- R310: OVF
   ⟨.meshElogovf, 0xF000002000000, 0x1000, 133, 0x688, [], .span 132 132, 2, 2,
    [⟨0, 16, .rc, false, 0x0, .any, false⟩]⟩] ++
  [
   -- R310: IDX
   ⟨.meshElogsel, 0xF000002000000, 0x1000, 133, 0x690, [], .span 132 132, 2, 2,
    [⟨0, 9, .rw, false, 0x0, .any, false⟩]⟩,
   -- R310: WORD
   ⟨.meshElogd, 0xF000002000000, 0x1000, 133, 0x698, [(4, 0x8)], .span 132 132, 2, 2,
    [⟨0, 64, .ro, false, 0x0, .any, false⟩]⟩,
   -- R302: CORR NONFATAL FATAL CORREN NFEN
   ⟨.meshErrsig, 0xF000002000000, 0x1000, 133, 0x6C0, [], .span 132 132, 2, 2,
    [⟨0, 1, .w1c, false, 0x0, .any, false⟩, ⟨1, 1, .w1c, false, 0x0, .any, false⟩, ⟨2, 1, .ro, false, 0x0, .any, false⟩, ⟨8, 1, .rw, true, 0x1, .any, false⟩, ⟨9, 1, .rw, true, 0x1, .any, false⟩]⟩]

/-- The registers of block VLT. -/
def vltRegs : List RegDef :=
  [
   -- R260: RUN REFUSED
   ⟨.vltCtl, 0xF000003000000, 0x1000, 97, 0x0, [], .span 0 95, 2, 2,
    [⟨0, 1, .rw, false, 0x0, .any, false⟩, ⟨1, 1, .w1c, false, 0x0, .any, false⟩]⟩,
   -- R260: QUIESCED CFGERR ERRCODE
   ⟨.vltStat, 0xF000003000000, 0x1000, 97, 0x8, [], .span 0 95, 2, 2,
    [⟨0, 1, .ro, false, 0x1, .any, false⟩, ⟨1, 1, .ro, false, 0x0, .any, false⟩, ⟨8, 8, .ro, false, 0x0, .any, false⟩]⟩,
   -- R318: EN PACE LIMIT
   ⟨.vltScrubcfg, 0xF000003000000, 0x1000, 97, 0x60, [], .all, 2, 2,
    [⟨0, 1, .rw, false, 0x1, .any, false⟩, ⟨1, 16, .rw, false, 0x10, .nonzero, false⟩, ⟨17, 12, .rw, false, 0x18, .nonzero, false⟩]⟩,
   -- R318: LASTLAP OVERDUE VALID
   ⟨.vltScrubstat, 0xF000003000000, 0x1000, 97, 0x68, [], .span 0 95, 2, 2,
    [⟨0, 32, .ro, false, 0x0, .any, false⟩, ⟨32, 1, .ro, false, 0x0, .any, false⟩, ⟨33, 1, .ro, false, 0x0, .any, false⟩]⟩,
   -- R266: V ADDR DONE POISONED REFUSED
   ⟨.vltRemap, 0xF000003000000, 0x1000, 97, 0x100, [(8, 0x8)], .span 0 95, 3, 3,
    [⟨0, 1, .rw, true, 0x0, .any, false⟩, ⟨6, 22, .rw, true, 0x0, .any, false⟩, ⟨28, 1, .ro, false, 0x0, .any, false⟩, ⟨29, 1, .ro, false, 0x0, .any, false⟩, ⟨30, 1, .w1c, false, 0x0, .any, false⟩]⟩]

/-- The registers of block OEC. -/
def oecRegs : List RegDef :=
  [
   -- R402: RUN REFUSED
   ⟨.oecCtl, 0xF000004000000, 0x1000000, 4, 0x0, [], .all, 2, 2,
    [⟨0, 1, .rw, false, 0x0, .any, false⟩, ⟨1, 1, .w1c, false, 0x0, .any, false⟩]⟩,
   -- R402: QUIESCED CFGERR ERRCODE
   ⟨.oecStat, 0xF000004000000, 0x1000000, 4, 0x8, [], .all, 2, 2,
    [⟨0, 1, .ro, false, 0x1, .any, false⟩, ⟨1, 1, .ro, false, 0x0, .any, false⟩, ⟨8, 8, .ro, false, 0x0, .any, false⟩]⟩,
   -- R402: LANEEN QOS
   ⟨.oecCfg, 0xF000004000000, 0x1000000, 4, 0x10, [], .all, 2, 2,
    [⟨0, 8, .rw, false, 0xFF, .any, true⟩, ⟨8, 6, .rw, false, 0x0, .any, false⟩]⟩,
   -- R402: RETIRED BUSY FALLBACK
   ⟨.oecLanestat, 0xF000004000000, 0x1000000, 4, 0x18, [], .all, 2, 2,
    [⟨0, 8, .ro, false, 0x0, .any, false⟩, ⟨8, 8, .ro, false, 0x0, .any, false⟩, ⟨16, 16, .rc, false, 0x0, .any, false⟩]⟩,
   -- R402: QUEUES CREDITS
   ⟨.oecPool, 0xF000004000000, 0x1000000, 4, 0x20, [], .all, 2, 2,
    [⟨0, 11, .ro, false, 0x400, .any, false⟩, ⟨16, 15, .ro, false, 0x4000, .any, false⟩]⟩,
   -- R444: MODE CTXBASE
   ⟨.oecIocfg, 0xF000004000000, 0x1000000, 4, 0x200, [], .all, 2, 2,
    [⟨0, 2, .rw, false, 0x0, .any, false⟩, ⟨12, 40, .rw, false, 0x0, .any, false⟩]⟩,
   -- R444: LIM
   ⟨.oecIoctxlim, 0xF000004000000, 0x1000000, 4, 0x208, [], .all, 2, 2,
    [⟨0, 17, .rw, false, 0x0, .any, false⟩]⟩,
   -- R445: SID ALL GO
   ⟨.oecIoinv, 0xF000004000000, 0x1000000, 4, 0x210, [], .all, 2, 2,
    [⟨0, 16, .rw, false, 0x0, .any, false⟩, ⟨16, 1, .rw, false, 0x0, .any, false⟩, ⟨17, 1, .w1s, false, 0x0, .any, false⟩]⟩,
   -- R446: WR OVF
   ⟨.oecIofltptr, 0xF000004000000, 0x1000000, 4, 0x218, [], .all, 2, 2,
    [⟨0, 6, .ro, false, 0x0, .any, false⟩, ⟨16, 16, .rc, false, 0x0, .any, false⟩]⟩,
   -- R446: WORD
   ⟨.oecIoflt, 0xF000004000000, 0x1000000, 4, 0x400, [(128, 0x8)], .all, 2, 2,
    [⟨0, 64, .ro, false, 0x0, .any, false⟩]⟩,
   -- R396: CREATE ENABLE RESET DESTROY STATE ERR
   ⟨.oecVictl, 0xF000004000000, 0x1000000, 4, 0x100000, [(256, 0x100)], .all, 2, 2,
    [⟨0, 1, .w1s, false, 0x0, .any, false⟩, ⟨1, 1, .rw, false, 0x0, .any, false⟩, ⟨2, 1, .w1s, false, 0x0, .any, false⟩, ⟨3, 1, .w1s, false, 0x0, .any, false⟩, ⟨8, 2, .ro, false, 0x0, .any, false⟩, ⟨16, 3, .ro, false, 0x0, .any, false⟩]⟩,
   -- R396: QCOUNT CREDITS WEIGHT
   ⟨.oecVicfg, 0xF000004000000, 0x1000000, 4, 0x100008, [(256, 0x100)], .all, 2, 2,
    [⟨0, 5, .rw, false, 0x1, .any, false⟩, ⟨16, 13, .rw, false, 0x0, .any, false⟩, ⟨32, 8, .rw, false, 0x1, .nonzero, false⟩]⟩] ++
  [
   -- R396: SID
   ⟨.oecVictx, 0xF000004000000, 0x1000000, 4, 0x100010, [(256, 0x100)], .all, 2, 2,
    [⟨0, 16, .rw, false, 0x0, .any, false⟩]⟩,
   -- R396: OWNER WORLD
   ⟨.oecViown, 0xF000004000000, 0x1000000, 4, 0x100018, [(256, 0x100)], .all, 3, 3,
    [⟨0, 12, .rw, true, 0x0, (.other 4095), false⟩, ⟨16, 1, .rw, true, 0x0, .any, false⟩]⟩,
   -- R396: SRC EN
   ⟨.oecViint, 0xF000004000000, 0x1000000, 4, 0x100020, [(256, 0x100)], .all, 2, 2,
    [⟨0, 12, .rw, false, 0x0, .any, false⟩, ⟨12, 1, .rw, false, 0x0, .any, false⟩]⟩,
   -- R401: HALTQ HALTED RESETDONE HALTCAUSE DROPS
   ⟨.oecVistat, 0xF000004000000, 0x1000000, 4, 0x100028, [(256, 0x100)], .all, 2, 2,
    [⟨0, 16, .ro, false, 0x0, .any, false⟩, ⟨16, 1, .ro, false, 0x0, .any, false⟩, ⟨17, 1, .w1c, false, 0x0, .any, false⟩, ⟨24, 8, .ro, false, 0x0, .any, false⟩, ⟨32, 16, .rc, false, 0x0, .any, false⟩]⟩,
   -- R393: ADDR
   ⟨.oecVifault, 0xF000004000000, 0x1000000, 4, 0x100030, [(256, 0x100)], .all, 2, 2,
    [⟨0, 64, .ro, false, 0x0, .any, false⟩]⟩,
   -- R396: SZ ADDR
   ⟨.oecViring, 0xF000004000000, 0x1000000, 4, 0x100040, [(256, 0x100), (16, 0x8)], .all, 2, 2,
    [⟨0, 5, .rw, false, 0x0, (.range 4 16), false⟩, ⟨12, 40, .rw, false, 0x0, .any, false⟩]⟩]

/-- The registers of block RC. -/
def rcRegs : List RegDef :=
  [
   -- R429: RUN REFUSED
   ⟨.rcCtl, 0xF000008000000, 0x100000, 8, 0x0, [], .all, 2, 2,
    [⟨0, 1, .rw, false, 0x0, .any, false⟩, ⟨1, 1, .w1c, false, 0x0, .any, false⟩]⟩,
   -- R429: QUIESCED CFGERR ERRCODE
   ⟨.rcStat, 0xF000008000000, 0x100000, 8, 0x8, [], .all, 2, 2,
    [⟨0, 1, .ro, false, 0x1, .any, false⟩, ⟨1, 1, .ro, false, 0x0, .any, false⟩, ⟨8, 8, .ro, false, 0x0, .any, false⟩]⟩,
   -- R428: BIFUR CXL QOS
   ⟨.rcCfg, 0xF000008000000, 0x100000, 8, 0x10, [], .all, 2, 2,
    [⟨0, 3, .rw, false, 0x0, .any, true⟩, ⟨8, 4, .rw, false, 0x0, .any, true⟩, ⟨12, 6, .rw, false, 0x0, .any, false⟩]⟩,
   -- R436: RANGE
   ⟨.rcCto, 0xF000008000000, 0x100000, 8, 0x18, [], .all, 2, 2,
    [⟨0, 3, .rw, false, 0x3, (.range 0 5), false⟩]⟩,
   -- R434: PERST LINKEN PWREN ATTN PWRLED PMETO UNCONTAIN HPEN MAXSPEED
   ⟨.rcPortctl, 0xF000008000000, 0x100000, 8, 0x100, [(4, 0x8)], .all, 2, 2,
    [⟨0, 1, .rw, false, 0x1, .any, false⟩, ⟨1, 1, .rw, false, 0x0, .any, false⟩, ⟨2, 1, .rw, false, 0x0, .any, false⟩, ⟨3, 1, .rw, false, 0x0, .any, false⟩, ⟨4, 1, .rw, false, 0x0, .any, false⟩, ⟨5, 1, .w1s, false, 0x0, .any, false⟩, ⟨6, 1, .w1s, false, 0x0, .any, false⟩, ⟨7, 1, .rw, false, 0x0, .any, false⟩, ⟨8, 3, .rw, false, 0x6, (.range 1 6), false⟩]⟩,
   -- R434: LINK WIDTH SPEED CXLUP PRESENT PMEACK DOWNEVT CONTAIN
   ⟨.rcPortstat, 0xF000008000000, 0x100000, 8, 0x140, [(4, 0x8)], .all, 2, 2,
    [⟨0, 3, .ro, false, 0x0, .any, false⟩, ⟨3, 5, .ro, false, 0x0, .any, false⟩, ⟨8, 3, .ro, false, 0x0, .any, false⟩, ⟨11, 1, .ro, false, 0x0, .any, false⟩, ⟨12, 1, .ro, false, 0x0, .any, false⟩, ⟨13, 1, .w1c, false, 0x0, .any, false⟩, ⟨14, 1, .w1c, false, 0x0, .any, false⟩, ⟨15, 1, .ro, false, 0x0, .any, false⟩]⟩,
   -- R444: MODE CTXBASE
   ⟨.rcIocfg, 0xF000008000000, 0x100000, 8, 0x200, [], .all, 2, 2,
    [⟨0, 2, .rw, false, 0x0, .any, true⟩, ⟨12, 40, .rw, false, 0x0, .any, true⟩]⟩,
   -- R444: LIM
   ⟨.rcIoctxlim, 0xF000008000000, 0x100000, 8, 0x208, [], .all, 2, 2,
    [⟨0, 17, .rw, false, 0x0, .any, true⟩]⟩,
   -- R445: SID ALL GO
   ⟨.rcIoinv, 0xF000008000000, 0x100000, 8, 0x210, [], .all, 2, 2,
    [⟨0, 16, .rw, false, 0x0, .any, false⟩, ⟨16, 1, .rw, false, 0x0, .any, false⟩, ⟨17, 1, .w1s, false, 0x0, .any, false⟩]⟩,
   -- R446: WR OVF
   ⟨.rcIofltptr, 0xF000008000000, 0x100000, 8, 0x218, [], .all, 2, 2,
    [⟨0, 6, .ro, false, 0x0, .any, false⟩, ⟨16, 16, .rc, false, 0x0, .any, false⟩]⟩,
   -- R447: EN BASE
   ⟨.rcSown, 0xF000008000000, 0x100000, 8, 0x220, [], .all, 3, 3,
    [⟨0, 1, .rw, true, 0x0, .any, false⟩, ⟨12, 40, .rw, true, 0x0, .any, false⟩]⟩,
   -- R447: SID ALL GO
   ⟨.rcSowninv, 0xF000008000000, 0x100000, 8, 0x228, [], .all, 3, 3,
    [⟨0, 16, .rw, true, 0x0, .any, false⟩, ⟨16, 1, .rw, true, 0x0, .any, false⟩, ⟨17, 1, .w1s, true, 0x0, .any, false⟩]⟩] ++
  [
   -- R442: LAST COUNT DROPS
   ⟨.rcShalt, 0xF000008000000, 0x100000, 8, 0x230, [], .all, 2, 2,
    [⟨0, 16, .ro, false, 0x0, .any, false⟩, ⟨16, 16, .ro, false, 0x0, .any, false⟩, ⟨32, 16, .rc, false, 0x0, .any, false⟩]⟩,
   -- R442: SID ALL
   ⟨.rcSresume, 0xF000008000000, 0x100000, 8, 0x238, [], .all, 2, 2,
    [⟨0, 16, .wo, false, 0x0, .any, false⟩, ⟨16, 1, .wo, false, 0x0, .any, false⟩]⟩,
   -- R438: EN PORT BASE
   ⟨.rcHdmlo, 0xF000008000000, 0x100000, 8, 0x300, [(8, 0x10)], .all, 2, 2,
    [⟨0, 1, .rw, false, 0x0, .any, true⟩, ⟨1, 2, .rw, false, 0x0, .any, true⟩, ⟨28, 24, .rw, false, 0x0, .any, true⟩]⟩,
   -- R438: SIZE
   ⟨.rcHdmhi, 0xF000008000000, 0x100000, 8, 0x308, [(8, 0x10)], .all, 2, 2,
    [⟨0, 17, .rw, false, 0x0, .any, true⟩]⟩,
   -- R446: WORD
   ⟨.rcIoflt, 0xF000008000000, 0x100000, 8, 0x400, [(128, 0x8)], .all, 2, 2,
    [⟨0, 64, .ro, false, 0x0, .any, false⟩]⟩,
   -- R395: EN GAP RID
   ⟨.rcCkucfg, 0xF000008000000, 0x100000, 8, 0x800, [(4, 0x20)], .all, 2, 2,
    [⟨0, 1, .rw, false, 0x0, .any, false⟩, ⟨1, 1, .w1c, false, 0x0, .any, false⟩, ⟨16, 16, .rw, false, 0x0, .any, false⟩]⟩,
   -- R395: ADDR
   ⟨.rcCkunext, 0xF000008000000, 0x100000, 8, 0x808, [(4, 0x20)], .all, 2, 2,
    [⟨0, 64, .rw, false, 0x0, .any, false⟩]⟩,
   -- R395: ADDR
   ⟨.rcCkuend, 0xF000008000000, 0x100000, 8, 0x810, [(4, 0x20)], .all, 2, 2,
    [⟨0, 64, .rw, false, 0x0, .any, false⟩]⟩,
   -- R395: RUNV
   ⟨.rcCkurunv, 0xF000008000000, 0x100000, 8, 0x818, [(4, 0x20)], .all, 2, 2,
    [⟨0, 32, .rw, false, 0xFFFFFFFF, .any, false⟩]⟩,
   -- R449: EN PORT STREAMID REQUIRE KEYREQ KEYRDY INSECURE RIDBASE RIDLIM
   ⟨.rcIdectl, 0xF000008000000, 0x100000, 8, 0x900, [(8, 0x20)], .all, 3, 3,
    [⟨0, 1, .rw, true, 0x0, .any, false⟩, ⟨1, 2, .rw, true, 0x0, .any, false⟩, ⟨3, 8, .rw, true, 0x0, .any, false⟩, ⟨11, 1, .rw, true, 0x0, .any, false⟩, ⟨12, 1, .w1s, true, 0x0, .any, false⟩, ⟨13, 1, .ro, false, 0x0, .any, false⟩, ⟨14, 1, .w1c, true, 0x0, .any, false⟩, ⟨16, 16, .rw, true, 0x0, .any, false⟩, ⟨32, 16, .rw, true, 0x0, .any, false⟩]⟩,
   -- R449: ADDR
   ⟨.rcIdeaddrbase, 0xF000008000000, 0x100000, 8, 0x908, [(8, 0x20)], .all, 3, 3,
    [⟨20, 44, .rw, true, 0x0, .any, false⟩]⟩,
   -- R449: ADDR
   ⟨.rcIdeaddrlim, 0xF000008000000, 0x100000, 8, 0x910, [(8, 0x20)], .all, 3, 3,
    [⟨20, 44, .rw, true, 0x0, .any, false⟩]⟩] ++
  [
   -- R449: WORD
   ⟨.rcIdekeyout, 0xF000008000000, 0x100000, 8, 0x918, [(8, 0x20)], .all, 3, 3,
    [⟨0, 64, .rc, true, 0x0, .any, false⟩]⟩]

/-- The registers of block IRT. -/
def irtRegs : List RegDef :=
  [
   -- R463: RUN REFUSED
   ⟨.irtCtl, 0xF000009000000, 0x0, 1, 0x0, [], .all, 1, 1,
    [⟨0, 1, .rw, false, 0x0, .any, false⟩, ⟨1, 1, .w1c, false, 0x0, .any, false⟩]⟩,
   -- R463: QUIESCED CFGERR ERRCODE
   ⟨.irtStat, 0xF000009000000, 0x0, 1, 0x8, [], .all, 1, 1,
    [⟨0, 1, .ro, false, 0x1, .any, false⟩, ⟨1, 1, .ro, false, 0x0, .any, false⟩, ⟨8, 8, .ro, false, 0x0, .any, false⟩]⟩,
   -- R456: QOS
   ⟨.irtCfg, 0xF000009000000, 0x0, 1, 0x10, [], .all, 2, 2,
    [⟨0, 6, .rw, false, 0x0, .any, false⟩]⟩,
   -- R456: PAGE
   ⟨.irtDbaddr, 0xF000009000000, 0x0, 1, 0x18, [], .all, 2, 2,
    [⟨12, 52, .rw, false, 0xFD000, .any, true⟩]⟩,
   -- R456: BASE
   ⟨.irtVbase, 0xF000009000000, 0x0, 1, 0x20, [], .all, 2, 2,
    [⟨12, 40, .rw, false, 0x0, .any, true⟩]⟩,
   -- R456: SOURCE
   ⟨.irtSwint, 0xF000009000000, 0x0, 1, 0x28, [], .all, 1, 1,
    [⟨0, 12, .wo, false, 0x0, .any, false⟩]⟩,
   -- R456: COUNT
   ⟨.irtDbrej, 0xF000009000000, 0x0, 1, 0x30, [], .all, 2, 2,
    [⟨0, 16, .rc, false, 0x0, .any, false⟩]⟩,
   -- R456: COUNT LAST
   ⟨.irtVfail, 0xF000009000000, 0x0, 1, 0x38, [], .all, 2, 2,
    [⟨0, 16, .rc, false, 0x0, .any, false⟩, ⟨16, 12, .ro, false, 0x0, .any, false⟩]⟩,
   -- R462: RUN LOCK STAGE1 STAGE2 PERIOD REMAIN
   ⟨.irtNwdctl, 0xF000009000000, 0x0, 1, 0x40, [], .all, 2, 2,
    [⟨0, 1, .rw, false, 0x0, .any, false⟩, ⟨1, 1, .w1s, false, 0x0, .any, false⟩, ⟨2, 1, .w1c, false, 0x0, .any, false⟩, ⟨3, 1, .w1c, false, 0x0, .any, false⟩, ⟨16, 16, .rw, false, 0x3E8, .nonzero, false⟩, ⟨32, 16, .ro, false, 0x0, .any, false⟩]⟩,
   -- R462: KICK
   ⟨.irtNwdkick, 0xF000009000000, 0x0, 1, 0x48, [], .all, 2, 2,
    [⟨0, 8, .wo, false, 0x0, .any, false⟩]⟩,
   -- R456: RISE FALL
   ⟨.irtGpioedge, 0xF000009000000, 0x0, 1, 0x50, [], .all, 2, 2,
    [⟨0, 16, .rw, false, 0x0, .any, false⟩, ⟨16, 16, .rw, false, 0x0, .any, false⟩]⟩,
   -- R451: EN P A GROUP MODE SIDCHK PRIO TARGET RC SID
   ⟨.irtSrc, 0xF000009000000, 0x0, 1, 0x10000, [(4096, 0x8)], .all, 2, 2,
    [⟨0, 1, .rw, false, 0x0, .any, false⟩, ⟨1, 1, .w1c, false, 0x0, .any, false⟩, ⟨2, 1, .ro, false, 0x0, .any, false⟩, ⟨3, 1, .rw, false, 0x0, .any, false⟩, ⟨4, 1, .rw, false, 0x0, .any, false⟩, ⟨5, 1, .rw, false, 0x0, .any, false⟩, ⟨6, 4, .rw, false, 0x0, .any, false⟩, ⟨12, 12, .rw, false, 0x0, .any, false⟩, ⟨24, 3, .rw, false, 0x0, .any, false⟩, ⟨32, 16, .rw, false, 0x0, .any, false⟩]⟩]

/-- The registers of block LV. -/
def lvRegs : List RegDef :=
  [
   -- R423: NORM SEC
   ⟨.lvSleepen, 0xF00000A000000, 0x0, 1, 0x100, [], .all, 2, 2,
    [⟨0, 3, .rw, false, 0x7, .any, false⟩, ⟨8, 3, .rw, true, 0x7, .any, false⟩]⟩,
   -- R423: TARGET I3C WAKEN
   ⟨.lvPkgcfg, 0xF00000A000000, 0x0, 1, 0x108, [], .all, 3, 3,
    [⟨0, 2, .rw, true, 0x0, (.range 0 2), false⟩, ⟨8, 1, .rw, true, 0x1, .any, false⟩, ⟨9, 1, .rw, true, 0x1, .any, false⟩]⟩,
   -- R423: RISE FALL
   ⟨.lvGpiowake, 0xF00000A000000, 0x0, 1, 0x110, [], .all, 3, 3,
    [⟨0, 16, .rw, true, 0x0, .any, false⟩, ⟨16, 16, .rw, true, 0x0, .any, false⟩]⟩,
   -- R423: STAMP
   ⟨.lvAoncmp, 0xF00000A000000, 0x0, 1, 0x118, [], .all, 3, 3,
    [⟨0, 64, .rw, true, 0x0, .any, false⟩]⟩,
   -- R423: SRC
   ⟨.lvWakesrc, 0xF00000A000000, 0x0, 1, 0x120, [], .all, 3, 3,
    [⟨0, 5, .rc, true, 0x0, .any, false⟩]⟩,
   -- R416: WATTS
   ⟨.lvPkglim, 0xF00000A000000, 0x0, 1, 0x128, [], .all, 3, 3,
    [⟨0, 10, .rw, true, 0x230, (.range 200 560), false⟩]⟩,
   -- R424: OEC RC
   ⟨.lvBlkpwr, 0xF00000A000000, 0x0, 1, 0x130, [], .all, 2, 2,
    [⟨0, 4, .rw, false, 0x0, .any, false⟩, ⟨8, 8, .rw, false, 0x0, .any, false⟩]⟩,
   -- R427: NEXT TOTAL
   ⟨.lvRlogptr, 0xF00000A000000, 0x0, 1, 0x140, [], .all, 2, 2,
    [⟨0, 6, .ro, false, 0x0, .any, false⟩, ⟨16, 16, .ro, false, 0x0, .any, false⟩]⟩,
   -- R416: UJ
   ⟨.lvUncenergy, 0xF00000A000000, 0x0, 1, 0x148, [], .all, 2, 2,
    [⟨0, 64, .ro, false, 0x0, .any, false⟩]⟩,
   -- R416: UJ
   ⟨.lvPkgenergy, 0xF00000A000000, 0x0, 1, 0x150, [], .all, 2, 2,
    [⟨0, 64, .ro, false, 0x0, .any, false⟩]⟩,
   -- R475: START
   ⟨.lvCorestart, 0xF00000A000000, 0x0, 1, 0x180, [(3, 0x8)], .all, 3, 3,
    [⟨0, 64, .w1s, true, 0x0, .any, false⟩]⟩,
   -- R480: TILE GO
   ⟨.lvTilerst, 0xF00000A000000, 0x0, 1, 0x198, [], .all, 3, 3,
    [⟨0, 7, .rw, true, 0x0, (.range 0 95), false⟩, ⟨8, 1, .w1s, true, 0x0, .any, false⟩]⟩] ++
  [
   -- R427: COUNT
   ⟨.lvRcnt, 0xF00000A000000, 0x0, 1, 0x1800, [(22, 0x8)], .all, 2, 2,
    [⟨0, 32, .rc, false, 0x0, .any, false⟩]⟩,
   -- R427: WORD
   ⟨.lvRlog, 0xF00000A000000, 0x0, 1, 0x2000, [(128, 0x8)], .all, 2, 2,
    [⟨0, 64, .ro, false, 0x0, .any, false⟩]⟩,
   -- R408: LEVEL
   ⟨.lvPreqself, 0xF00000A000000, 0x0, 1, 0x3FF8, [], .all, 1, 1,
    [⟨0, 4, .rw, false, 0x6, .any, false⟩]⟩,
   -- R408: LEVEL
   ⟨.lvPreq, 0xF00000A000000, 0x0, 1, 0x4000, [(192, 0x8)], .all, 2, 2,
    [⟨0, 4, .rw, false, 0x6, .any, false⟩]⟩,
   -- R408: CUR CEIL WIDEACT RAISING RAISEFAIL STATE
   ⟨.lvPstat, 0xF00000A000000, 0x0, 1, 0x4800, [(192, 0x8)], .all, 1, 1,
    [⟨0, 4, .ro, false, 0xA, .any, false⟩, ⟨4, 4, .ro, false, 0x6, .any, false⟩, ⟨8, 1, .ro, false, 0x0, .any, false⟩, ⟨9, 1, .ro, false, 0x0, .any, false⟩, ⟨10, 1, .ro, false, 0x0, .any, false⟩, ⟨11, 3, .ro, false, 0x0, .any, false⟩]⟩,
   -- R415: CAP LEVEL MISS
   ⟨.lvOcap, 0xF00000A000000, 0x0, 1, 0x8000, [(4095, 0x8)], .all, 2, 2,
    [⟨0, 12, .rw, false, 0x0, .any, false⟩, ⟨12, 4, .ro, false, 0x0, .any, false⟩, ⟨16, 1, .ro, false, 0x0, .any, false⟩]⟩,
   -- R416: UJ
   ⟨.lvEnergy, 0xF00000A000000, 0x0, 1, 0x10000, [(4095, 0x8)], .all, 2, 2,
    [⟨0, 64, .ro, false, 0x0, .any, false⟩]⟩]

/-- The registers of block WK. -/
def wkRegs : List RegDef :=
  [
   -- R374: ADDR
   ⟨.wkMbaddr, 0xF00000B000000, 0x0, 1, 0x0, [(2, 0x100)], .all, 1, 1,
    [⟨6, 46, .rw, false, 0x0, .any, false⟩]⟩,
   -- R374: CMD GO LEN
   ⟨.wkMbcmd, 0xF00000B000000, 0x0, 1, 0x8, [(2, 0x100)], .all, 1, 1,
    [⟨0, 8, .rw, false, 0x0, .any, false⟩, ⟨8, 1, .w1s, false, 0x0, .any, false⟩, ⟨16, 24, .rw, false, 0x0, .any, false⟩]⟩,
   -- R374: BUSY DONE STATUS RESULT
   ⟨.wkMbstat, 0xF00000B000000, 0x0, 1, 0x10, [(2, 0x100)], .all, 1, 1,
    [⟨0, 1, .ro, false, 0x0, .any, false⟩, ⟨1, 1, .w1c, false, 0x0, .any, false⟩, ⟨8, 8, .ro, false, 0x0, .any, false⟩, ⟨32, 32, .ro, false, 0x0, .any, false⟩]⟩,
   -- R374: PHASE FAILCODE
   ⟨.wkBootstat, 0xF00000B000000, 0x0, 1, 0x200, [], .all, 1, 1,
    [⟨0, 4, .ro, false, 0x0, .any, false⟩, ⟨8, 8, .ro, false, 0x0, .any, false⟩]⟩,
   -- R482: CAUSE FATAL TILERST
   ⟨.wkRstinfo, 0xF00000B000000, 0x0, 1, 0x208, [], .all, 1, 1,
    [⟨0, 8, .ro, false, 0x0, .any, false⟩, ⟨8, 8, .ro, false, 0x0, .any, false⟩, ⟨24, 8, .ro, false, 0x0, .any, false⟩]⟩]

/-- The registers of block PM. -/
def pmRegs : List RegDef :=
  [
   -- R472: EN WIN QOS QOSEN
   ⟨.pmWincfg, 0xF00000C000000, 0x1000, 132, 0x0, [], .all, 2, 2,
    [⟨0, 1, .rw, false, 0x0, .any, false⟩, ⟨1, 14, .rw, false, 0x3E8, (.range 1 10000), false⟩, ⟨15, 6, .rw, false, 0x0, .any, false⟩, ⟨21, 1, .rw, false, 0x0, .any, false⟩]⟩,
   -- R472: SEQ
   ⟨.pmWinseq, 0xF00000C000000, 0x1000, 132, 0x8, [], .all, 2, 2,
    [⟨0, 32, .ro, false, 0x0, .any, false⟩]⟩,
   -- R472: TIME
   ⟨.pmWinend, 0xF00000C000000, 0x1000, 132, 0x10, [], .all, 2, 2,
    [⟨0, 64, .ro, false, 0x0, .any, false⟩]⟩,
   -- R472: LO HI
   ⟨.pmTraf, 0xF00000C000000, 0x1000, 132, 0x20, [(2, 0x8)], .all, 2, 2,
    [⟨0, 32, .ro, false, 0x0, .any, false⟩, ⟨32, 32, .ro, false, 0x0, .any, false⟩]⟩,
   -- R472: LO HI
   ⟨.pmMem, 0xF00000C000000, 0x1000, 132, 0x40, [(4, 0x8)], .memory, 2, 2,
    [⟨0, 32, .ro, false, 0x0, .any, false⟩, ⟨32, 32, .ro, false, 0x0, .any, false⟩]⟩]

/-- The registers of block OWN. -/
def ownRegs : List RegDef :=
  [
   -- R325: BASE
   ⟨.ownTbase, 0xF00000D000000, 0x0, 1, 0x0, [(3, 0x8)], .all, 3, 3,
    [⟨12, 40, .rw, true, 0x0, .any, false⟩]⟩,
   -- R325: PAGES
   ⟨.ownTpages, 0xF00000D000000, 0x0, 1, 0x20, [(3, 0x8)], .all, 3, 3,
    [⟨0, 33, .rw, true, 0x0, .any, false⟩]⟩,
   -- R325: LOCK
   ⟨.ownTlock, 0xF00000D000000, 0x0, 1, 0x40, [], .all, 3, 3,
    [⟨0, 1, .w1s, true, 0x0, .any, false⟩]⟩,
   -- R341: TILE
   ⟨.ownClaim0, 0xF00000D000000, 0x0, 1, 0x80, [], .all, 3, 3,
    [⟨0, 64, .rw, true, 0x0, .any, false⟩]⟩,
   -- R341: TILEH MC RC OEC IRT VAULT
   ⟨.ownClaim1, 0xF00000D000000, 0x0, 1, 0x88, [], .all, 3, 3,
    [⟨0, 32, .rw, true, 0x0, .any, false⟩, ⟨32, 16, .rw, true, 0x0, .any, false⟩, ⟨48, 8, .rw, true, 0x0, .any, false⟩, ⟨56, 4, .rw, true, 0x0, .any, false⟩, ⟨60, 1, .rw, true, 0x0, .any, false⟩, ⟨61, 1, .rw, true, 0x1, .any, false⟩]⟩,
   -- R342: RUN HALF PERIOD REMAIN
   ⟨.ownSwdctl, 0xF00000D000000, 0x0, 1, 0x100, [], .all, 3, 3,
    [⟨0, 1, .w1s, true, 0x0, .any, false⟩, ⟨1, 1, .w1c, true, 0x0, .any, false⟩, ⟨16, 16, .rw, true, 0x3E8, .nonzero, false⟩, ⟨32, 16, .ro, false, 0x0, .any, false⟩]⟩,
   -- R342: KICK
   ⟨.ownSwdkick, 0xF00000D000000, 0x0, 1, 0x108, [], .all, 3, 3,
    [⟨0, 8, .wo, true, 0x0, .any, false⟩]⟩,
   -- R344: AUTH CERT
   ⟨.ownDbgauth, 0xF00000D000000, 0x0, 1, 0x180, [], .all, 2, 2,
    [⟨0, 4, .ro, false, 0x0, .any, false⟩, ⟨4, 1, .ro, false, 0x0, .any, false⟩]⟩,
   -- R331: DMA OEC LATEW
   ⟨.ownDenycnt, 0xF00000D000000, 0x0, 1, 0x200, [], .all, 2, 2,
    [⟨0, 16, .rc, false, 0x0, .any, false⟩, ⟨16, 16, .rc, false, 0x0, .any, false⟩, ⟨32, 16, .rc, false, 0x0, .any, false⟩]⟩,
   -- R331: ADDR OWNER
   ⟨.ownDenylast, 0xF00000D000000, 0x0, 1, 0x208, [], .all, 3, 3,
    [⟨0, 52, .ro, true, 0x0, .any, false⟩, ⟨52, 12, .ro, true, 0x0, .any, false⟩]⟩]

/-- The whole region. -/
def allRegs : List RegDef :=
  mcRegs ++ llcRegs ++ meshRegs ++ vltRegs ++ oecRegs ++ rcRegs ++ irtRegs ++ lvRegs ++ wkRegs ++ pmRegs ++ ownRegs

/-- A register of the region: which, and its indices (block instance, first and second repetition). -/
structure RegAt where
  d : RegDef
  n : Nat
  k : Nat
  j : Nat
deriving DecidableEq, Repr

/-- The indices of an offset within a register's repetitions. -/
def RegDef.indices (d : RegDef) (o : Nat) : Option (Nat × Nat) :=
  match d.reps with
  | [] => if o = 0 then some (0, 0) else none
  | [(c, st)] => if o % st = 0 ∧ o / st < c then some (o / st, 0) else none
  | (c, st) :: (c', st') :: _ =>
    if o / st < c ∧ o % st % st' = 0 ∧ o % st / st' < c' then some (o / st, o % st / st') else none

/-- The register of `d` at address `a`, if it is one. -/
def RegDef.match? (d : RegDef) (a : Nat) : Option RegAt :=
  if a < d.base then none else
  let r := a - d.base
  let n := if d.stride = 0 then 0 else r / d.stride
  let o := if d.stride = 0 then r else r % d.stride
  if n < d.insts ∧ d.at_.has n ∧ d.off ≤ o then
    (d.indices (o - d.off)).map (fun p => ⟨d, n, p.1, p.2⟩)
  else none

/-- The register at an address of the region; none at an unassigned address (R9). -/
def regAt (a : Nat) : Option RegAt := allRegs.findSome? (fun d => d.match? a)

/-- The register with a name. -/
def defOf (i : RegId) : Option RegDef := allRegs.find? (fun d => d.id == i)

/-- The address of a register by name and indices. -/
def regAddr (i : RegId) (n k j : Nat) : Nat :=
  match defOf i with
  | none => 0
  | some d =>
    d.base + n * d.stride + d.off +
      (match d.reps with
       | [] => 0
       | [(_, st)] => k * st
       | (_, st) :: (_, st') :: _ => k * st + j * st')

/-- The reset value of a register (Reset columns of the register tables). -/
def RegDef.resetValue (d : RegDef) : W64 :=
  d.fields.foldl (fun v f => setFld v f.lo f.width f.reset) 0

end Sys2Proof.Machine
end

