-- ==== Sys2Proof/Machine/Crs.lean ====
section
/-! DEFINITION. The control registers that hold a value (R55 and the chapters it names): number, class, levels, bank, fields.
CR.STATUS, CR.COREID, CR.TIME, CR.LIPEND and CR.IEOI hold none here: they are read from other state. -/

namespace Sys2Proof.Machine

/-- When a write takes effect: class D (R57), class S (R58), or neither. -/
inductive CrClass
  | d | s | n
deriving DecidableEq, Repr

/-- A control register, or `count` of them spaced `step` apart. -/
structure CrDef where
  num : Nat
  count : Nat
  step : Nat
  cls : CrClass
  level : Nat
  wlevel : Nat
  banked : Bool
  fields : List Field
deriving DecidableEq, Repr


def crTable0 : List CrDef :=
  [
   -- fenv
   ⟨0x2, 1, 1, .d, 0, 0, false,
    [⟨0, 3, .rw, false, 0x0, (.range 0 4), false⟩, ⟨3, 5, .rw, false, 0x0, .any, false⟩, ⟨8, 5, .rw, false, 0x0, .any, false⟩]⟩,
   -- drm
   ⟨0x3, 1, 1, .d, 0, 0, false,
    [⟨0, 3, .rw, false, 0x0, (.range 0 4), false⟩, ⟨3, 5, .rw, false, 0x0, .any, false⟩, ⟨8, 5, .rw, false, 0x0, .any, false⟩]⟩,
   -- vcfg
   ⟨0x4, 1, 1, .d, 0, 0, false,
    [⟨0, 2, .rw, false, 0x0, .any, false⟩, ⟨2, 2, .rw, false, 0x0, .any, false⟩, ⟨4, 1, .rw, false, 0x0, .any, false⟩, ⟨5, 1, .rw, false, 0x0, .any, false⟩, ⟨6, 1, .rw, false, 0x0, .any, false⟩]⟩,
   -- vlen
   ⟨0x5, 1, 1, .d, 0, 0, false,
    [⟨0, 10, .rw, false, 0x0, .any, false⟩]⟩,
   -- vresume
   ⟨0x6, 1, 1, .d, 0, 0, false,
    [⟨0, 10, .rw, false, 0x0, .any, false⟩]⟩,
   -- grant
   ⟨0x9, 1, 1, .n, 1, 4, false,
    [⟨0, 4, .ro, false, 0x6, .any, false⟩, ⟨4, 4, .ro, false, 0x6, .any, false⟩, ⟨8, 4, .ro, false, 0x0, .any, false⟩, ⟨12, 1, .ro, false, 0x0, .any, false⟩, ⟨13, 1, .ro, false, 0x0, .any, false⟩, ⟨14, 1, .ro, false, 0x0, .any, false⟩, ⟨16, 16, .ro, false, 0x0, .any, false⟩]⟩,
   -- ipmask1
   ⟨0x40, 1, 1, .d, 1, 1, false,
    [⟨0, 5, .rw, false, 0x10, (.range 0 16), false⟩]⟩,
   -- ipmask2
   ⟨0x41, 1, 1, .d, 2, 2, false,
    [⟨0, 5, .rw, false, 0x10, (.range 0 16), false⟩]⟩,
   -- ipmask3
   ⟨0x42, 1, 1, .d, 3, 3, false,
    [⟨0, 5, .rw, false, 0x10, (.range 0 16), false⟩]⟩,
   -- vcpu
   ⟨0x45, 1, 1, .d, 2, 2, false,
    [⟨0, 12, .rw, false, 0x0, .any, false⟩, ⟨15, 1, .rw, false, 0x0, .any, false⟩]⟩,
   -- tcmp1
   ⟨0x48, 1, 1, .d, 1, 1, false,
    [⟨0, 64, .rw, false, 0x0, .any, false⟩]⟩,
   -- tcmp2
   ⟨0x49, 1, 1, .d, 2, 2, false,
    [⟨0, 64, .rw, false, 0x0, .any, false⟩]⟩,
   -- tcmp3
   ⟨0x4A, 1, 1, .d, 3, 3, false,
    [⟨0, 64, .rw, false, 0x0, .any, false⟩]⟩,
   -- pmctl
   ⟨0x80, 1, 1, .d, 1, 1, false,
    [⟨0, 8, .rw, false, 0x0, .any, false⟩, ⟨8, 1, .rw, false, 0x1, .any, false⟩, ⟨9, 1, .rw, false, 0x0, .any, false⟩, ⟨10, 1, .rw, false, 0x0, .any, false⟩]⟩,
   -- cycle
   ⟨0x81, 1, 1, .d, 1, 1, false,
    [⟨0, 64, .rw, false, 0x0, .any, false⟩]⟩]

def crTable1 : List CrDef :=
  [
   -- pmovf
   ⟨0x82, 1, 1, .d, 1, 1, false,
    [⟨0, 8, .w1c, false, 0x0, .any, false⟩]⟩,
   -- pmc
   ⟨0x88, 8, 1, .d, 1, 1, false,
    [⟨0, 48, .rw, false, 0x0, .any, false⟩]⟩,
   -- pmsel
   ⟨0x90, 8, 1, .d, 1, 1, false,
    [⟨0, 10, .rw, false, 0x0, .any, false⟩, ⟨10, 1, .rw, false, 0x0, .any, false⟩, ⟨11, 1, .rw, false, 0x0, .any, false⟩, ⟨12, 1, .rw, false, 0x0, .any, false⟩, ⟨13, 1, .rw, false, 0x0, .any, false⟩, ⟨14, 1, .rw, false, 0x0, .any, false⟩]⟩,
   -- smpcfg
   ⟨0xA0, 1, 1, .d, 1, 1, false,
    [⟨0, 10, .rw, false, 0x0, .any, false⟩, ⟨10, 1, .rw, false, 0x0, .any, false⟩, ⟨11, 4, .rw, false, 0x0, .any, false⟩, ⟨16, 32, .rw, false, 0x1, .nonzero, false⟩]⟩,
   -- smpbase
   ⟨0xA1, 1, 1, .d, 1, 1, false,
    [⟨12, 40, .rw, false, 0x0, .any, false⟩]⟩,
   -- smpptr
   ⟨0xA2, 1, 1, .d, 1, 1, false,
    [⟨0, 16, .rw, false, 0x0, .any, false⟩, ⟨16, 16, .rw, false, 0x0, .any, false⟩, ⟨32, 16, .rw, false, 0x0, .any, false⟩]⟩,
   -- smpstat
   ⟨0xA3, 1, 1, .d, 1, 1, false,
    [⟨0, 1, .w1c, false, 0x0, .any, false⟩, ⟨1, 1, .ro, false, 0x0, .any, false⟩, ⟨16, 16, .rc, false, 0x0, .any, false⟩, ⟨32, 12, .ro, false, 0x0, .any, false⟩, ⟨44, 1, .ro, false, 0x0, .any, false⟩, ⟨45, 2, .ro, false, 0x0, .any, false⟩]⟩,
   -- estatus1
   ⟨0x100, 1, 1, .d, 1, 1, true,
    [⟨0, 2, .rw, false, 0x0, .any, false⟩, ⟨2, 1, .rw, false, 0x0, .any, false⟩, ⟨3, 1, .rw, false, 0x0, .any, false⟩, ⟨4, 1, .rw, false, 0x0, .any, false⟩, ⟨5, 1, .rw, false, 0x0, .any, false⟩]⟩,
   -- epc1
   ⟨0x101, 1, 1, .d, 1, 1, true,
    [⟨0, 64, .rw, false, 0x0, .any, false⟩]⟩,
   -- enpc1
   ⟨0x102, 1, 1, .d, 1, 1, true,
    [⟨0, 64, .rw, false, 0x0, .any, false⟩]⟩,
   -- ecause1
   ⟨0x103, 1, 1, .d, 1, 1, true,
    [⟨0, 6, .rw, false, 0x0, .any, false⟩, ⟨6, 2, .rw, false, 0x0, .any, false⟩, ⟨8, 1, .rw, false, 0x0, .any, false⟩, ⟨9, 1, .rw, false, 0x0, .any, false⟩, ⟨10, 1, .rw, false, 0x0, .any, false⟩, ⟨11, 1, .rw, false, 0x0, .any, false⟩, ⟨12, 2, .rw, false, 0x0, .any, false⟩, ⟨16, 16, .rw, false, 0x0, .any, false⟩]⟩,
   -- eaddr1
   ⟨0x104, 1, 1, .d, 1, 1, true,
    [⟨0, 64, .rw, false, 0x0, .any, false⟩]⟩,
   -- evec1
   ⟨0x105, 1, 1, .s, 1, 1, true,
    [⟨12, 52, .rw, false, 0x0, .any, false⟩]⟩,
   -- scratch1
   ⟨0x106, 1, 1, .d, 1, 1, true,
    [⟨0, 64, .rw, false, 0x0, .any, false⟩]⟩,
   -- estatus2
   ⟨0x200, 1, 1, .d, 2, 2, false,
    [⟨0, 2, .rw, false, 0x0, .any, false⟩, ⟨2, 1, .rw, false, 0x0, .any, false⟩, ⟨3, 1, .rw, false, 0x0, .any, false⟩, ⟨4, 1, .rw, false, 0x0, .any, false⟩, ⟨5, 1, .rw, false, 0x0, .any, false⟩]⟩]

def crTable2 : List CrDef :=
  [
   -- epc2
   ⟨0x201, 1, 1, .d, 2, 2, false,
    [⟨0, 64, .rw, false, 0x0, .any, false⟩]⟩,
   -- enpc2
   ⟨0x202, 1, 1, .d, 2, 2, false,
    [⟨0, 64, .rw, false, 0x0, .any, false⟩]⟩,
   -- ecause2
   ⟨0x203, 1, 1, .d, 2, 2, false,
    [⟨0, 6, .rw, false, 0x0, .any, false⟩, ⟨6, 2, .rw, false, 0x0, .any, false⟩, ⟨8, 1, .rw, false, 0x0, .any, false⟩, ⟨9, 1, .rw, false, 0x0, .any, false⟩, ⟨10, 1, .rw, false, 0x0, .any, false⟩, ⟨11, 1, .rw, false, 0x0, .any, false⟩, ⟨12, 2, .rw, false, 0x0, .any, false⟩, ⟨16, 16, .rw, false, 0x0, .any, false⟩]⟩,
   -- eaddr2
   ⟨0x204, 1, 1, .d, 2, 2, false,
    [⟨0, 64, .rw, false, 0x0, .any, false⟩]⟩,
   -- evec2
   ⟨0x205, 1, 1, .s, 2, 2, false,
    [⟨12, 52, .rw, false, 0x0, .any, false⟩]⟩,
   -- scratch2
   ⟨0x206, 1, 1, .d, 2, 2, false,
    [⟨0, 64, .rw, false, 0x0, .any, false⟩]⟩,
   -- estatus3
   ⟨0x300, 1, 1, .d, 3, 3, false,
    [⟨0, 2, .rw, false, 0x0, .any, false⟩, ⟨2, 1, .rw, false, 0x0, .any, false⟩, ⟨3, 1, .rw, false, 0x0, .any, false⟩, ⟨4, 1, .rw, false, 0x0, .any, false⟩, ⟨5, 1, .rw, false, 0x0, .any, false⟩]⟩,
   -- epc3
   ⟨0x301, 1, 1, .d, 3, 3, false,
    [⟨0, 64, .rw, false, 0x0, .any, false⟩]⟩,
   -- enpc3
   ⟨0x302, 1, 1, .d, 3, 3, false,
    [⟨0, 64, .rw, false, 0x0, .any, false⟩]⟩,
   -- ecause3
   ⟨0x303, 1, 1, .d, 3, 3, false,
    [⟨0, 6, .rw, false, 0x0, .any, false⟩, ⟨6, 2, .rw, false, 0x0, .any, false⟩, ⟨8, 1, .rw, false, 0x0, .any, false⟩, ⟨9, 1, .rw, false, 0x0, .any, false⟩, ⟨10, 1, .rw, false, 0x0, .any, false⟩, ⟨11, 1, .rw, false, 0x0, .any, false⟩, ⟨12, 2, .rw, false, 0x0, .any, false⟩, ⟨16, 16, .rw, false, 0x0, .any, false⟩]⟩,
   -- eaddr3
   ⟨0x304, 1, 1, .d, 3, 3, false,
    [⟨0, 64, .rw, false, 0x0, .any, false⟩]⟩,
   -- evec3
   ⟨0x305, 1, 1, .s, 3, 3, false,
    [⟨12, 52, .rw, false, 0xE000000000, .any, false⟩]⟩,
   -- scratch3
   ⟨0x306, 1, 1, .d, 3, 3, false,
    [⟨0, 64, .rw, false, 0x0, .any, false⟩]⟩,
   -- eipa
   ⟨0x207, 1, 1, .d, 2, 2, false,
    [⟨0, 64, .rw, false, 0x0, .any, false⟩]⟩,
   -- predctl
   ⟨0x110, 1, 1, .s, 1, 1, true,
    [⟨0, 1, .rw, false, 0x0, .any, false⟩, ⟨1, 1, .rw, false, 0x0, .any, false⟩, ⟨2, 1, .rw, false, 0x0, .any, false⟩]⟩]

def crTable3 : List CrDef :=
  [
   -- s1tb
   ⟨0x120, 2, 1, .s, 1, 1, true,
    [⟨12, 40, .rw, false, 0x0, .any, false⟩]⟩,
   -- asid
   ⟨0x122, 1, 1, .s, 1, 1, true,
    [⟨0, 16, .rw, false, 0x0, .any, false⟩]⟩,
   -- palette
   ⟨0x123, 1, 1, .s, 1, 1, true,
    [⟨0, 3, .rw, false, 0x0, (.range 0 4), false⟩, ⟨8, 3, .rw, false, 0x0, (.range 0 4), false⟩, ⟨16, 3, .rw, false, 0x0, (.range 0 4), false⟩, ⟨24, 3, .rw, false, 0x0, (.range 0 4), false⟩, ⟨32, 3, .rw, false, 0x0, (.range 0 4), false⟩, ⟨40, 3, .rw, false, 0x0, (.range 0 4), false⟩, ⟨48, 3, .rw, false, 0x0, (.range 0 4), false⟩, ⟨56, 3, .rw, false, 0x0, (.range 0 4), false⟩]⟩,
   -- s1cfg
   ⟨0x124, 1, 1, .s, 1, 1, true,
    [⟨0, 1, .rw, false, 0x0, .any, false⟩, ⟨1, 1, .rw, false, 0x0, .any, false⟩, ⟨2, 1, .rw, false, 0x0, .any, false⟩]⟩,
   -- s1casel
   ⟨0x130, 8, 2, .s, 1, 1, true,
    [⟨0, 1, .rw, false, 0x0, .any, false⟩, ⟨1, 3, .rw, false, 0x0, .any, false⟩, ⟨4, 6, .rw, false, 0x0, .any, false⟩, ⟨21, 27, .rw, false, 0x0, .any, false⟩]⟩,
   -- s1caseh
   ⟨0x131, 8, 2, .s, 1, 1, true,
    [⟨0, 31, .rw, false, 0x0, .any, false⟩, ⟨31, 26, .rw, false, 0x0, .any, false⟩]⟩,
   -- hcfg
   ⟨0x210, 1, 1, .s, 2, 2, false,
    [⟨0, 1, .rw, false, 0x0, .any, false⟩, ⟨1, 1, .rw, false, 0x0, .any, false⟩]⟩,
   -- clksel
   ⟨0x211, 1, 1, .s, 1, 2, false,
    [⟨0, 1, .rw, false, 0x0, .any, false⟩, ⟨1, 1, .ro, false, 0x0, .any, false⟩, ⟨2, 1, .ro, false, 0x0, .any, false⟩]⟩,
   -- s2tb
   ⟨0x220, 1, 1, .s, 2, 2, false,
    [⟨12, 40, .rw, false, 0x0, .any, false⟩]⟩,
   -- vmid
   ⟨0x221, 1, 1, .s, 2, 2, false,
    [⟨0, 16, .rw, false, 0x0, .any, false⟩]⟩,
   -- s2palette
   ⟨0x222, 1, 1, .s, 2, 2, false,
    [⟨0, 3, .rw, false, 0x0, (.range 0 4), false⟩, ⟨8, 3, .rw, false, 0x0, (.range 0 4), false⟩, ⟨16, 3, .rw, false, 0x0, (.range 0 4), false⟩, ⟨24, 3, .rw, false, 0x0, (.range 0 4), false⟩, ⟨32, 3, .rw, false, 0x0, (.range 0 4), false⟩, ⟨40, 3, .rw, false, 0x0, (.range 0 4), false⟩, ⟨48, 3, .rw, false, 0x0, (.range 0 4), false⟩, ⟨56, 3, .rw, false, 0x0, (.range 0 4), false⟩]⟩,
   -- s2cfg
   ⟨0x223, 1, 1, .s, 2, 2, false,
    [⟨0, 1, .rw, false, 0x0, .any, false⟩]⟩,
   -- pl2tb
   ⟨0x228, 2, 1, .s, 2, 2, false,
    [⟨12, 40, .rw, false, 0x0, .any, false⟩]⟩,
   -- pl2palette
   ⟨0x22A, 1, 1, .s, 2, 2, false,
    [⟨0, 3, .rw, false, 0x0, (.range 0 4), false⟩, ⟨8, 3, .rw, false, 0x0, (.range 0 4), false⟩, ⟨16, 3, .rw, false, 0x0, (.range 0 4), false⟩, ⟨24, 3, .rw, false, 0x0, (.range 0 4), false⟩, ⟨32, 3, .rw, false, 0x0, (.range 0 4), false⟩, ⟨40, 3, .rw, false, 0x0, (.range 0 4), false⟩, ⟨48, 3, .rw, false, 0x0, (.range 0 4), false⟩, ⟨56, 3, .rw, false, 0x0, (.range 0 4), false⟩]⟩,
   -- pl2cfg
   ⟨0x22B, 1, 1, .s, 2, 2, false,
    [⟨0, 1, .rw, false, 0x0, .any, false⟩, ⟨1, 1, .rw, false, 0x0, .any, false⟩, ⟨2, 1, .rw, false, 0x0, .any, false⟩]⟩]

def crTable4 : List CrDef :=
  [
   -- s2casel
   ⟨0x230, 8, 2, .s, 2, 2, false,
    [⟨0, 1, .rw, false, 0x0, .any, false⟩, ⟨1, 3, .rw, false, 0x0, .any, false⟩, ⟨4, 6, .rw, false, 0x0, .any, false⟩, ⟨10, 1, .rw, false, 0x0, .any, false⟩, ⟨21, 27, .rw, false, 0x0, .any, false⟩]⟩,
   -- s2caseh
   ⟨0x231, 8, 2, .s, 2, 2, false,
    [⟨0, 31, .rw, false, 0x0, .any, false⟩, ⟨31, 26, .rw, false, 0x0, .any, false⟩]⟩,
   -- owner
   ⟨0x310, 1, 1, .s, 1, 3, false,
    [⟨0, 12, .rw, false, 0x1, (.other 4095), false⟩]⟩,
   -- dbgen
   ⟨0x318, 1, 1, .s, 3, 3, false,
    [⟨0, 1, .rw, false, 0x0, .any, false⟩, ⟨1, 1, .rw, false, 0x0, .any, false⟩, ⟨2, 1, .rw, false, 0x0, .any, false⟩, ⟨3, 1, .rw, false, 0x0, .any, false⟩, ⟨4, 1, .rw, false, 0x0, .any, false⟩, ⟨5, 1, .rw, false, 0x0, .any, false⟩]⟩,
   -- pl3tb
   ⟨0x320, 2, 1, .s, 3, 3, false,
    [⟨12, 40, .rw, false, 0x0, .any, false⟩]⟩,
   -- pl3palette
   ⟨0x322, 1, 1, .s, 3, 3, false,
    [⟨0, 3, .rw, false, 0x0, (.range 0 4), false⟩, ⟨8, 3, .rw, false, 0x0, (.range 0 4), false⟩, ⟨16, 3, .rw, false, 0x0, (.range 0 4), false⟩, ⟨24, 3, .rw, false, 0x0, (.range 0 4), false⟩, ⟨32, 3, .rw, false, 0x0, (.range 0 4), false⟩, ⟨40, 3, .rw, false, 0x0, (.range 0 4), false⟩, ⟨48, 3, .rw, false, 0x0, (.range 0 4), false⟩, ⟨56, 3, .rw, false, 0x0, (.range 0 4), false⟩]⟩,
   -- pl3cfg
   ⟨0x323, 1, 1, .s, 3, 3, false,
    [⟨0, 1, .rw, false, 0x0, .any, false⟩, ⟨1, 1, .rw, false, 0x0, .any, false⟩, ⟨2, 1, .rw, false, 0x0, .any, false⟩]⟩,
   -- pl3casel
   ⟨0x330, 8, 2, .s, 3, 3, false,
    [⟨0, 1, .rw, false, 0x0, .any, false⟩, ⟨1, 3, .rw, false, 0x0, .any, false⟩, ⟨4, 6, .rw, false, 0x0, .any, false⟩, ⟨21, 27, .rw, false, 0x0, .any, false⟩]⟩,
   -- pl3caseh
   ⟨0x331, 8, 2, .s, 3, 3, false,
    [⟨0, 31, .rw, false, 0x0, .any, false⟩, ⟨31, 26, .rw, false, 0x0, .any, false⟩]⟩]

def crTable : List CrDef := crTable0 ++ crTable1 ++ crTable2 ++ crTable3 ++ crTable4

/-- Whether `d` has control register number `n`. -/
def CrDef.has (d : CrDef) (n : Nat) : Bool :=
  d.num ≤ n && (n - d.num) % d.step == 0 && (n - d.num) / d.step < d.count

/-- The control register of a number, if it holds a value. -/
def crAt (n : Nat) : Option CrDef := crTable.find? (fun d => d.has n)

/-- Numbers that are assigned but hold no value of their own: STATUS, COREID, TIME, IEOI, LIPEND. -/
def crComputed (n : Nat) : Bool := n == 0 || n == 1 || n == 8 || n == 0x44 || n == 0x46

/-- Reset value of a control register. -/
def crReset (n : Nat) : W64 :=
  match crAt n with
  | none => 0
  | some d => d.fields.foldl (fun v f => setFld v f.lo f.width f.reset) 0

/-- Whether a number is banked by world (R53). -/
def crBanked (n : Nat) : Bool := 0x100 ≤ n && n < 0x140

/-- The key of a register in `Core.cr`: the secure bank stands 0x1000 higher. -/
def crKey (n : Nat) (secure : Bool) : Nat := if crBanked n && secure then n + 0x1000 else n

/-- A field after a write of `v`: the values it takes (R6). -/
def Takes.ok : Takes → Nat → Bool
  | .any, _ => true
  | .nonzero, v => v != 0
  | .range lo hi, v => lo ≤ v && v ≤ hi
  | .other x, v => v != x

/-- One field of a register after a write of the whole word `v` (R6); W1S, W1C, RC, RO and WO as the table says. -/
def Field.write (f : Field) (old v : W64) : W64 :=
  let x := fld v f.lo f.width
  match f.acc with
  | .rw => if f.takes.ok x then setFld old f.lo f.width x else old
  | .w1c => setFld old f.lo f.width (Nat.land (fld old f.lo f.width) (2 ^ f.width - 1 - x))
  | .w1s => setFld old f.lo f.width (Nat.lor (fld old f.lo f.width) x)
  | .ro | .wo | .rc => old

end Sys2Proof.Machine
end

