-- ==== Sys2Proof/Config.lean ====
section
/-! DEFINITION. What the manual leaves open: each free value is a constant with no body, so no proof can see what it
is. A value that may differ at each use takes the counter `State.free`; the others take what they depend on. -/

namespace Sys2Proof.Config

/-- Whether the instruction at a position inside the window of a class D write sees the new value (R57): the write, register, positions
left of its window. DESIGN CHOICE, log 1. -/
opaque seesNew : Nat → Nat → Nat → Bool

/-- The pseudo-LRU choice of an LLC victim among `n` candidate ways (R237). DESIGN CHOICE, log 6. -/
opaque llcVictim : Nat → Nat → Nat

/-- The L2 way chosen for replacement among `n` lines of a set (R224 names no policy). DESIGN CHOICE, log 6. -/
opaque l2Victim : Nat → Nat → Nat

/-- The line an L1D or L1I drops for another, among `n` lines of a set (R224 names no policy). DESIGN CHOICE, log 6. -/
opaque l1Victim : Nat → Nat → Nat

/-- The bytes of a line granted by ClaimLine, which carries no data, until they are written (R230). DESIGN CHOICE, log 6. -/
opaque claimedData : Nat → BitVec 512

/-- The way of a line in an L1 or L2, which error records report (R313) and nothing else shows. DESIGN CHOICE, log 6. -/
opaque cacheWay : Nat → BitVec 4

/-- The byte of an L1I line that an upset strikes, which its error record reports (R311). DESIGN CHOICE, log 6. -/
opaque upsetByte : Nat → BitVec 6

/-- The directory set of a line at its home (R229 gives the number of sets and ways, not the index). DESIGN CHOICE, log 6. -/
opaque dirSet : Nat → Nat → Nat

/-- Whether an error beyond the guarantee of R294 is reported. DESIGN CHOICE, log 7. -/
opaque errorReported : Nat → Bool

/-- The wrong line an unreported error leaves (R294). DESIGN CHOICE, log 7. -/
opaque alteredLine : Nat → BitVec 512

/-- The bits after BFINAL of the DEFLATE block a lane's compressor makes: use, level, the bytes before, the block's input (R380).
DESIGN CHOICE, log 8. -/
opaque deflateBlock : Nat → Nat → List (BitVec 8) → List (BitVec 8) → List Bool

/-- The raw DEFLATE stream a lane's compressor makes of a Twill block: use, level, input (R382). DESIGN CHOICE, log 8. -/
opaque deflateStream : Nat → Nat → List (BitVec 8) → List (BitVec 8)

/-- The byte of Wicket's mask ROM at an offset below 256 KiB (R346 gives its size, not its code). DESIGN CHOICE, log 105. -/
opaque wicketRom : Nat → BitVec 8

/-- What Wicket's program counter, its general registers and bytes of its SRAM hold after work of its ROM or firmware, whose code the
manual does not give: the ROM, the use, the register. DESIGN CHOICE, log 105. -/
opaque wicketPc : (Nat → BitVec 8) → Nat → BitVec 64
opaque wicketReg : (Nat → BitVec 8) → Nat → Nat → BitVec 64
opaque wicketSram : (Nat → BitVec 8) → Nat → List (BitVec 19 × BitVec 8)

/-- Random bits of the DRBG (R348). DESIGN CHOICE, log 9. -/
opaque drbg : Nat → BitVec 256

/-- SLH-DSA-SHA2-128f signature under the identity key made from the 48 derived bytes of Table 2 of 12: randomiser, context, message
(R367, R370). DESIGN CHOICE, log 10. -/
opaque slhSign : List (BitVec 8) → BitVec 256 → List (BitVec 8) → List (BitVec 8) → List (BitVec 8)

/-- SLH-DSA public key made from the 48 derived bytes of Table 2 of 12 (R349). DESIGN CHOICE, log 10. -/
opaque slhPublic : List (BitVec 8) → BitVec 256

/-- SLH-DSA-SHA2-128s verification: public key, context, message, signature (R352, R345, R369). DESIGN CHOICE, log 10. -/
opaque slhVerify : BitVec 256 → List (BitVec 8) → List (BitVec 8) → List (BitVec 8) → Bool

/-- Sign and payload of a NaN result, which IEEE 754-2019 does not fix (R143, R159). DESIGN CHOICE, log 11. -/
opaque nanBits : Nat → Nat → Nat → Nat

/-- Whether a fused multiply-add of zero and infinity with a quiet NaN addend signals invalid (IEEE 754-2019 7.2). DESIGN CHOICE, log 11. -/
opaque fmaInvalid : Bool

/-- Which of two equal numbers of one cohort minimumNumber and maximumNumber return (IEEE 754-2019 9.6). DESIGN CHOICE, log 11. -/
opaque cohortFirst : BitVec 128 → BitVec 128 → Bool

/-- The integer of an invalid decimal conversion (R144 states none). DESIGN CHOICE, log 11. -/
opaque decToInt : BitVec 128 → BitVec 64

/-- Whether an implementation detects tininess after rounding (IEEE 754-2019 7.5 leaves the choice; R56). DESIGN CHOICE, log 11. -/
opaque tinyAfter : Bool

/-- Core cycles that pass with an instruction's retirement, for the cycle events of R465 (R166). DESIGN CHOICE, log 12. -/
opaque cycles : Nat → Nat

/-- Of those, cycles in which nothing was dispatched because a queue was full (R467). DESIGN CHOICE, log 12. -/
opaque stallCycles : Nat → Nat

/-- Counts of a window that rest on timing or on each message of the mesh: traffic, cycles with a full write queue, read-queue
occupancy (R472): use, item. DESIGN CHOICE, log 12. -/
opaque pmTiming : Nat → Nat → BitVec 32

/-- Activity weight posted for an instruction class (R416 names no weights). DESIGN CHOICE, log 13. -/
opaque activityWeight : Nat → Nat

/-- Leakage share of a core rail's measured energy, in parts of 65,536 (R416 does not give it). DESIGN CHOICE, log 13. -/
opaque leakageShare : Nat → Nat

/-- Bits that a failing supply corrupts in a result (R24, R320). DESIGN CHOICE, log 14. -/
opaque supplyNoise : Nat → BitVec 64
opaque supplyWide : Nat → Nat → BitVec 512
opaque supplyBytes : Nat → List (BitVec 52 × BitVec 8)

/-- Whether a byte that R390 or R400 leaves open was written: use, position. DESIGN CHOICE, log 8. -/
opaque mixedByte : Nat → Nat → Bool

/-- Bits [15:0] of the answer of OWN.SET for an address outside the table, which has no old entry (R120): use. DESIGN CHOICE, log 85. -/
opaque noEntry : Nat → BitVec 16

/-- Loads executed again after a snoop took their line (R172): what a pipeline held then. DESIGN CHOICE, log 89. -/
opaque loadRedo : Nat → Nat

/-- The QoS class of what Wicket, Louvre and the monitors send (R254 gives none). DESIGN CHOICE, log 90. -/
opaque serviceQos : BitVec 6

/-- The set of a translation in the L2 TLB, and the entry that leaves a full set (R217 gives neither). DESIGN CHOICE, log 59. -/
opaque tlbSet : Nat → Nat → Nat
opaque tlbVictim : Nat → Nat → Nat

/-- How much of its output a regulator has left some time after it was turned off (R491): time, rail. DESIGN CHOICE, log 25. -/
opaque residual : Nat → Nat → Nat

/-- The eight-bit vendor policy of Louvre firmware on a request it may refuse (R425). DESIGN CHOICE, log 15. -/
opaque firmwareRefuses : Nat → Bool

/-- The tries of a frame that hardware sends of itself, as its regulator answers them (R29). DESIGN CHOICE, log 106. -/
opaque linkTries : Nat → List LinkFail

/-- Whether a CXL device leaves a request of the part unanswered until its completion timeout (R439). DESIGN CHOICE, log 125. -/
opaque cxlTimeout : Nat → Bool

/-- What a root port's configuration dword reads before it is written (R431 names the capabilities, not their contents): root
complex, port, offset. PRESUMED, log 17. -/
opaque rootPortReg : Nat → Nat → Nat → BitVec 32

/-- Where the PCIe, power-management and AER capabilities of a root port stand, in dwords above 0x40, in the room the first leaves, and
above 0x100 (R431 does not say). PRESUMED, log 17. -/
opaque pcieCapAt : Nat
opaque pmCapAt : Nat
opaque aerCapAt : Nat

end Sys2Proof.Config
end

