-- ==== Sys2Proof/Machine/State.lean ====
section
/-! DEFINITION. The state of the part: every register, buffer, table, mode and pin the manual gives it, as plain data. -/

namespace Sys2Proof.Machine

/-! ## Lines of data -/

/-- An entry of the key table (R289, R349): K1 in bytes 0 to 31, K2 in bytes 32 to 63. -/
abbrev MemKey := BitVec 512

/-- One 64-byte line on the move or in a cache: data, poison bit per 8-byte word (R305), the page entry under which it was
supplied (R328), words with one and with two flipped bits (R303). -/
structure CLine where
  data : W512
  poison : BitVec 8
  entry : W16
  one : BitVec 8
  two : BitVec 8
deriving DecidableEq, Repr

/-- L2 line states other than I (R228). -/
inductive Moesi
  | m | o | e | s
deriving DecidableEq, Repr

/-- A line held by a core's L2, with its presence in L1D and L1I (R228), whether the core has written its L1D copy, and upsets of the
L1 copies (R303). -/
structure L2Line where
  st : Moesi
  c : CLine
  l1d : Bool
  l1i : Bool
  wrote : Bool
  oneD : BitVec 8
  twoD : BitVec 8
  badI : Bool
deriving DecidableEq, Repr

/-- What is known of a stored line of DRAM, CXL memory or the vault beside its bytes: the key it was written under (none since
the fill), stored poison of a whole line, symbols in error (R293), vault bytes poisoned, with one and with two flipped bits
(R265). -/
structure LineNote where
  key : Option MemKey
  poison : Bool
  syms : List Nat
  vp : BitVec 64
  v1 : BitVec 64
  v2 : BitVec 64
deriving DecidableEq, Repr

/-- A line the fill left (R308). -/
def LineNote.fresh : LineNote := ⟨none, false, [], 0, 0, 0⟩

/-- An LLC way (R224): line, copy, dirty, placed by PRELOAD.F in the present fill window (R243), at the least recently used position
since its way was unlocked (R244). -/
structure LlcWay where
  line : Nat
  c : CLine
  dirty : Bool
  placed : Bool
  lru : Bool
deriving DecidableEq, Repr

/-- A directory entry (R229): presence by CR.COREID, holder in M, O or E, and the page entry (R328). -/
structure DirEnt where
  present : BitVec 192
  holder : Option Nat
  entry : W16
deriving DecidableEq, Repr

/-- The attributes a core's transaction was issued with (R254), its level last. -/
structure Ident where
  secure : Bool
  owner : Nat
  qos : Nat
  pl : Nat
deriving DecidableEq, Repr

/-- Requests to the home (R230): `back` is a WriteBack, or an Evict with data, of a line in the writeback buffer (R232), `leave` an
Evict of S; `recall` the home's own (R234). -/
inductive Req
  | readShared
  | readUnique
  | upgrade
  | claim
  | writeFull (data : W512) (poison : BitVec 8)
  | back
  | leave
  | recall
deriving DecidableEq, Repr

/-- Snoops (R230). -/
inductive Snp
  | shared | unique | inv
deriving DecidableEq, Repr

/-- A snoop of a transaction: sent to a core, or answered with the data it returns, if any, and whether that is dirty. -/
inductive SnpSt
  | sent
  | answered (c : Option CLine) (dirty : Bool)
deriving DecidableEq, Repr

/-- A transaction in progress at the home of a line (R231), with the key owner of its check (R322) and its attributes. -/
structure Txn where
  core : Nat
  req : Req
  snoops : List (Nat × Snp × SnpSt)
  got : Option CLine
  dirty : Bool
  entry : W16
  ko : Nat
  who : Ident
deriving DecidableEq, Repr

/-- A request waiting in a conflict queue (R231, R233). -/
structure QReq where
  core : Nat
  line : Nat
  req : Req
  who : Ident
deriving DecidableEq, Repr

/-- A fill granted and on its way to a core (R232, R235), and whether its data is read from memory (R285). -/
structure FillMsg where
  core : Nat
  line : Nat
  st : Moesi
  c : Option CLine
  mem : Bool
deriving DecidableEq, Repr

/-- A write in a controller's queue (R280): line, data, the key it is written under, the QoS class of its transaction (R254). -/
structure QWrite where
  line : Nat
  c : CLine
  key : MemKey
  qos : Nat
deriving DecidableEq, Repr

/-- A dirty LLC victim awaiting acceptance, and the line its way is reserved for (R238). -/
structure Victim where
  slice : Nat
  line : Nat
  c : CLine
  way : Nat
  incoming : Option LlcWay
deriving DecidableEq, Repr

/-- A line cached by an ownership cache: agent (0-15 controllers, 16-111 ports, 112-115 root complexes), table line, data,
poison (R327). -/
structure OwnLine where
  agent : Nat
  line : Nat
  data : W512
  poison : BitVec 8
deriving DecidableEq, Repr

/-! ## A core -/

/-- Whether and how a core runs (R115, R417, R344). `entering` holds a SLEEP part of the way through its entry, at a step of Table 4
of 14, with the state as the refusal log codes it: 0 to 2 a core state, 3 and 4 a package state. -/
inductive Run
  | running
  | waiting (deadline : W64)
  | entering (level : Nat) (step : Nat) (rd : RegNo)
  | ajar (rd : RegNo)
  | latched (rd : RegNo)
  | closed (rd : RegNo)
  | halted
deriving DecidableEq, Repr

/-- A class D write in its window (R57): register (with the bank in bit 12), new value, the bits the write leaves alone (R6),
positions left, and which use of the free choice of R57 it is. -/
structure PendD where
  num : Nat
  val : W64
  keep : W64
  left : Nat
  use : Nat
deriving DecidableEq, Repr

/-- Memory types by palette code (R210). -/
inductive MType
  | devS | devP | nc | wt | wb
deriving DecidableEq, Repr

/-- What a store-buffer entry does when it drains (R168). -/
inductive StKind
  | bytes
  | line
  | zero
  | atomic (fn : AtFn) (dword far : Bool) (operand : W64)
deriving DecidableEq, Repr

/-- A store-buffer entry: first byte, length, data, memory type, first half of a split pair (R178), a release
store, and the attributes at retirement. -/
structure SbEnt where
  pa : Nat
  len : Nat
  data : W512
  kind : StKind
  mt : MType
  pair : Bool
  rel : Bool
  who : Ident
deriving DecidableEq, Repr

/-- How a loaded value is placed: general register with extension, or floating register (R88). -/
inductive Dest
  | gpr (k : LdKind)
  | gzx
  | fpr
  | none
deriving DecidableEq, Repr

/-- An access that has left the core and waits for its response (R192). -/
structure OutAcc where
  rd : RegNo
  dest : Dest
  bytes : Nat
  pa : Nat
  va : W64
  write : Bool
  val : W64
  rc : Option Nat
  tag : Nat
  cfg : Bool
  atomic : Option (AtFn × Bool × W64 × W64)
deriving DecidableEq, Repr

/-- A load that waits for partly overlapping stores to drain (R169). -/
structure WaitLd where
  rd : RegNo
  dest : Dest
  bytes : Nat
  va : W64
  acquire : Bool
deriving DecidableEq, Repr

/-- Translation regimes (R197). -/
inductive Regime
  | normal | secure | pl2 | pl3
deriving DecidableEq, Repr

/-- One stage's mapping: input base, size as a power of two, output base, palette index, rights (UR UW UX SR SW SX, or R W X),
dirty mark, global, and the casement that gave it. -/
structure XEnt where
  base : Nat
  size : Nat
  out : Nat
  pal : Nat
  rights : BitVec 6
  dirty : Bool
  glob : Bool
  cas : Option Nat
deriving DecidableEq, Repr

/-- A TLB entry with the tags of R218 and the addresses it translates: a stage-1, PL2 or PL3 mapping with its stage-2 mapping if any, or a stage-2 mapping on
its own; marked as R209 says; and which of the L1 ITLB, the L1 DTLB and the L2 TLB hold it (R217). -/
structure TlbEnt where
  regime : Regime
  only2 : Bool
  vmid : Nat
  asid : Nat
  owner : Owner
  base : Nat
  size : Nat
  s1 : XEnt
  s2 : Option XEnt
  marked : Bool
  inI : Bool
  inD : Bool
  in2 : Bool
deriving DecidableEq, Repr

/-- An entry of the table-entry cache (R217): the pointer a table of level `lvl` holds for the addresses from `base`, with the tags
of R218, whether stage 2 gave the table's place, and whether one of its casements did (R209). -/
structure PtrEnt where
  regime : Regime
  only2 : Bool
  vmid : Nat
  asid : Nat
  owner : Owner
  dep2 : Bool
  lvl : Nat
  base : Nat
  next : Nat
  marked : Bool
deriving DecidableEq, Repr

/-- TLB invalidation operations (R108). -/
inductive XlOp
  | page | space | s1 | gpage | mach | norm | hpage | sec
deriving DecidableEq, Repr

/-- An invalidation received and not yet accepted (R109, R110). -/
structure XlReq where
  op : XlOp
  ga : W64
  gb : W64
  secure : Bool
  vmid : Nat
deriving DecidableEq, Repr

/-- A full-line store stream (R240): last line, direction up, length. -/
structure Stream where
  last : Nat
  up : Bool
  len : Nat
deriving DecidableEq, Repr

/-- A predictor context (R182): index, world, owner, VMID and ASID. -/
structure PredCtx where
  idx : Nat
  secure : Bool
  owner : Owner
  vmid : Nat
  asid : Nat
deriving DecidableEq, Repr

/-- A trained entry: context index, branch address, the path or history it is indexed by besides, target, and the two-bit counter of
a direction (R179, R182). -/
structure PredEnt where
  idx : Nat
  addr : W64
  key : BitVec 192
  target : W64
  ctr : Nat
deriving DecidableEq, Repr

/-- Branch prediction state (R179-R182): contexts, most recently used first; the two target buffers, the indirect-target predictor,
the bimodal base and the six tagged tables of the direction predictor, each most recently trained first; the return stack with the
context of each entry; the outcomes of the last 192 branches and the path history. -/
structure Pred where
  ctxs : List PredCtx
  zero : List PredEnt
  main : List PredEnt
  ind : List PredEnt
  base : List PredEnt
  tagged : List (List PredEnt)
  ras : List (Nat × W64)
  hist : BitVec 192
  path : BitVec 192
deriving DecidableEq, Repr

/-- Nothing predicted. -/
def Pred.empty : Pred := ⟨[], [], [], [], [], [], [], 0, 0⟩

/-- A released vector instruction in the queue: its destination vector registers and mask registers (R133-R135), and whether it
is one of R412. -/
structure VqEnt where
  vs : List Nat
  ms : List Nat
  wide : Bool
deriving DecidableEq, Repr

/-- One core; `switching` while its clock source changes (R40); `activity` and `ownTime` by owner since the last millisecond
boundary (R416); `smpLeft` the sampling countdown, `smpHit` that the instruction under way is to be sampled, `smpDue` what the samples of
retired instructions hold of their context, until SAMPLE_TAKEN adds the rest, and `smpHeld` the records awaiting their writes (R469,
R470); `misp` branches found mispredicted and not retired (R467); `cur` the level in effect while the wide ceiling does not apply, `goal` the target last acted on, `raising` and
`raiseFail` as in PSTAT (R408); `asks` the first-level cache that each line requested is for (R236). Register files list only non-zero registers; `cr` lists control registers by number, with 0x1000 added for the
secure bank (R53). -/
structure Core where
  started : Bool
  run : Run
  pc : W64
  slot : Option W64
  g : Tab W64
  v : Tab W512
  m : Tab W512
  status : W64
  cr : Tab W64
  pendD : List PendD
  pendS : List (Nat × W64)
  sb : List SbEnt
  out : Option OutAcc
  waitLd : Option WaitLd
  heldEntry : Option (Nat × Nat)
  tlb : List TlbEnt
  ptrs : List PtrEnt
  inbox : List XlReq
  l2 : Tab L2Line
  wbb : Tab (CLine × Bool)
  asks : Tab L1
  streams : List Stream
  pred : Pred
  vq : List VqEnt
  wide : Bool
  switching : Bool
  smpLeft : Nat
  smpHit : Bool
  smpDue : List W512
  smpHeld : List W512
  activity : Tab Nat
  ownTime : Tab Nat
  cur : Nat
  goal : Nat
  raising : Bool
  raiseFail : Bool
  saved : Bool
  lage : Tab Nat
  vecStop : Bool
  misp : List W64
deriving DecidableEq, Repr

/-- The monitor's first instruction (R476). -/
def resetPc : W64 := 0xE000000000000#64

/-- A core in the reset state of R476, held. Registers of undefined reset are zero (DESIGN CHOICE, log 2). -/
def Core.reset : Core where
  started := false
  run := .running
  pc := resetPc
  slot := none
  g := []
  v := []
  m := []
  status := 0x7
  cr := []
  pendD := []
  pendS := []
  sb := []
  out := none
  waitLd := none
  heldEntry := none
  tlb := []
  ptrs := []
  inbox := []
  l2 := []
  wbb := []
  asks := []
  streams := []
  pred := Pred.empty
  vq := []
  wide := false
  switching := false
  smpLeft := 0
  smpHit := false
  smpDue := []
  smpHeld := []
  activity := []
  ownTime := []
  cur := 10
  goal := 10
  raising := false
  raiseFail := false
  saved := false
  lage := []
  vecStop := false
  misp := []

/-! ## Memory controllers, vault ports, mesh links, error rings -/

/-- A memory controller (chapter 09): write queue oldest first (R280), refreshes owed per rank, by bank, oldest first (R284), parity replays per rank
(R285), temperature and failed readings per sensor (R271), errors of the window (R296, R299), scrub position per subchannel and
elapsed time (R318), saved settings (R274), fill of dropped ranks in progress (R298), start of the window; the open row and the
activations of each bank, and the count that requires refresh management, 0 where none does (R285). -/
structure Mc where
  rows : Tab Nat
  acts : Tab Nat
  rfm : Nat
  wq : List QWrite
  debt : Tab (List Nat)
  parity : Tab Nat
  temp : Nat
  fails : List Nat
  hot : Bool
  ueCount : Nat
  devCount : Tab Nat
  scrubA : Nat
  scrubB : Nat
  lapStart : Nat
  saved : List W64
  filling : Bool
  trained : Bool
  resetN : Bool
deriving DecidableEq, Repr

def Mc.reset : Mc :=
  { rows := [], acts := [], rfm := 0, wq := [], debt := [], parity := [], temp := 0, fails := [0, 0, 0], hot := false, ueCount := 0, devCount := [], scrubA := 0,
    scrubB := 0, lapStart := 0, saved := [], filling := false, trained := false, resetN := false }

/-- A vault port's scrub position and lap start (R317, R318). -/
structure Vlt where
  scrub : Nat
  lapStart : Nat
deriving DecidableEq, Repr

/-- A link direction: sends of the failing flit in a row (R257), errors per lane in the window, retired lanes (R258). -/
structure Link where
  sends : Nat
  errs : Tab Nat
deriving DecidableEq, Repr

/-- The published map (R277): fields of MAPCFG, X8 and P, masks, CRMASK. -/
structure PubMap where
  n : Nat
  chbits : Nat
  rkbits : Nat
  set : Nat
  x8 : Bool
  r2 : Bool
  rows32 : Bool
  masks : List (BitVec 36)
  crmask : BitVec 36
deriving DecidableEq, Repr

/-- An error ring (R310): records of four words by slot, next SEQ, snapshot of ELOGD0. -/
structure ErrRing where
  recs : Tab (W64 × W64 × W64 × W64)
  seq : W32
  snap : W64 × W64 × W64 × W64
deriving DecidableEq, Repr

def ErrRing.reset : ErrRing := ⟨[], 0, (0, 0, 0, 0)⟩

/-- A charged request a regulator holds (R288). -/
structure HeldReq where
  stop : Nat
  core : Nat
  line : Nat
  req : Req
  who : Ident
deriving DecidableEq, Repr

/-! ## Root complexes, IOMMUs -/

/-- The registers of a slot's expander as the root complex has written them: output levels, polarity, direction. A root complex that
starts has written 0x00, 0x00 and 0x0F (R434; DEDUCED, log 128). -/
structure Expander where
  output : Byte
  polarity : Byte
  direction : Byte
deriving DecidableEq, Repr

/-- A root port (R431, R434, R435, R443): the input pins the expander last gave, its registers, configuration dwords written, AER uncorrectable status, PME status, Slot Status,
expander reads missed in a row, PME_Turn_Off sent, a PERST release waiting for its 100 ms, when PWREN last became 1 (0 for never),
PERST_N low. -/
structure RootPort where
  inputs : BitVec 4
  expander : Expander
  raw : Tab W32
  aer : W32
  pme : Bool
  slot : W16
  misses : Nat
  turnOff : Bool
  perstDue : Bool
  pwrAt : Nat
  low : Bool
deriving DecidableEq, Repr

def RootPort.reset : RootPort := ⟨0xF, ⟨0, 0, 0x0F⟩, [], 0, false, 0, 0, false, false, 0, true⟩

/-- A non-posted request outstanding: its tag, its requester (a core, Wicket as 192, Louvre as 193), its port, and the IDE stream that
covers it (R436, R448). -/
structure OutReq where
  tag : Nat
  who : Nat
  port : Nat
  ide : Option Nat
deriving DecidableEq, Repr

/-- An access of Wicket or Louvre through a root complex: outstanding, or how it ended: its value, or none for an error status (R436). -/
structure SvcAccess where
  acc : Option OutAcc
  res : Option (Option W64)
deriving DecidableEq, Repr

/-- The completion of an inbound read (R440 Table 2): data, data with its poison, Unsupported Request, Completer Abort. -/
inductive Reply
  | data (bytes : List Byte)
  | poisoned (bytes : List Byte)
  | unsupported
  | abort
deriving DecidableEq, Repr

/-- A completion sent to a device: its requester, the IDE stream that covers it (R448), what it carries. -/
structure Sent where
  sid : Nat
  ide : Option Nat
  reply : Reply
deriving DecidableEq, Repr

/-- A root complex beside its registers: root ports, outstanding non-posted requests, next tag, accesses of Wicket and Louvre (by 192 and
193), the last completion of an inbound read (R440), halted streams (R442), IDE keys still to be read and streams whose keys are
requested (R449). -/
structure Rc where
  ports : Tab RootPort
  svc : Tab SvcAccess
  sent : Option Sent
  out : List OutReq
  next : Nat
  halted : List Nat
  keys : Tab (List W64)
  keyReq : List Nat
deriving DecidableEq, Repr

def Rc.reset : Rc := ⟨[], [], none, [], 0, [], [], []⟩

/-- A translation cached by an IOMMU (R445): read and write rights of the first and of the second stage. -/
structure IoMap where
  sid : Nat
  base : Nat
  size : Nat
  out : Nat
  r1 : Bool
  w1 : Bool
  r2 : Bool
  w2 : Bool
  mt : MType
deriving DecidableEq, Repr

/-- An IOMMU's caches (R445, R447): contexts and stream ownership entries by stream, translations; and how many entries of its fault log
have been written, up to its 64 (R446). -/
structure Iommu where
  logged : Nat
  ctxs : Tab (List W64)
  owns : Tab W16
  maps : List IoMap
deriving DecidableEq, Repr

def Iommu.reset : Iommu := ⟨0, [], [], []⟩

/-! ## Offload complexes (chapter 13) -/

/-- What a descriptor's completion record reports beside its TAG and SEQ (R391). -/
structure Outcome where
  status : Nat
  outlen : Nat
  inlen : Nat
  crcrun : W32
  xsum : W32
  rawblk : Nat
  verifyfb : Bool
deriving DecidableEq, Repr

/-- A descriptor on a lane: instance, queue, SEQ, the 64 bytes, and how it ended. -/
structure Job where
  vi : Nat
  queue : Nat
  seq : Nat
  desc : W512
  result : Option Outcome
deriving DecidableEq, Repr

/-- A lane: its descriptor, and its verification failures in a row (R387). -/
structure Lane where
  job : Option Job
  fails : Nat
deriving DecidableEq, Repr

def Lane.reset : Lane := ⟨none, 0⟩

/-- A virtual instance beside its registers: queued descriptors with their SEQ, next SEQ and completions of each queue (R391,
R392), free credits, and its place in the sharing of lanes (R399): VT in units of one cycle over `vtScale`, whether it is in cand,
lane-slots waited, the queue whose turn is next. -/
structure Vi where
  queues : Tab (List (Nat × W512))
  nextSeq : Tab Nat
  ended : Tab Nat
  free : Nat
  vt : Nat
  joined : Bool
  wait : Nat
  turn : Nat
deriving DecidableEq, Repr

def Vi.reset : Vi := ⟨[], [], [], 0, 0, false, 0, 0⟩

/-! ## Package: pins, supplies, clocks, always-on domain, voltage link -/

/-- A regulator of the voltage link (R26-R35, R491): enabled, discharge, target code, slew, mode; where its output stood (in parts of
1,200 of the 5 mV of a code step) and when it begins or began to move from there; whether it fails to move; sticky status bits [6:1],
and what Louvre last read of it. -/
structure Vr where
  enabled : Bool
  discharge : Bool
  code : Byte
  slew : BitVec 4
  mode : BitVec 2
  base : Nat
  begin : Nat
  stuck : Bool
  sticky : BitVec 6
  status : W16
  vout : W16
  iout : W16
  temp : W16
  ident : W16
deriving DecidableEq, Repr

def Vr.off : Vr := ⟨false, false, 0, 0, 0, 0, 0, false, 0, 0, 0, 0, 0, 0⟩

/-- A raise of a die's rail (R33): waiting for VOUT_OK, its SET_VID code and the one before it, waiting to retry, failures in a row. -/
structure Raise where
  busy : Bool
  code : Nat
  old : Nat
  retry : Bool
  fails : Nat
deriving DecidableEq, Repr

def Raise.none : Raise := ⟨false, 0, 0, false, 0⟩

/-- Package state (R417, R422). -/
inductive PkgState
  | running | shuttered | shutteredPartial
deriving DecidableEq, Repr

/-- Supplies, straps, clocks, pins, and what the always-on domain holds (chapters 01, 14 and 18). `pll` is lock of the root PLL, `clocks`
whether the functional clocks run, `hold` what R46 holds; `causes` the reset causes since core 0 was last released, `fatalCode` the
first fatal code (R482); `startDue` whether start-up may begin, `restart` whether it begins by itself; `entering` the core that runs
or ran the package entry; `memWait` whether requests to DRAM and CXL wait (R422); `energyRem` remainders of energy by owner, with the
uncore's at 4096 and the package's at 4097, in parts of 524,288 of a microjoule; `gpioRef` the pin levels that the router's edge
detectors sampled before a package state (R15); `trims` how far each tile regulator trims its rail down, in steps of 5 mV (R406). -/
structure Power where
  vaon : Bool
  pwrgood : Bool
  octal : Bool
  testEn : Bool
  flashMode : Nat
  resetN : Bool
  pll : Bool
  clocks : Bool
  errFatal : Bool
  thermtrip : Bool
  dieHold : BitVec 4
  uncHold : Bool
  gpio : BitVec 16
  gpioRef : BitVec 16
  meshPll : Bool
  meshSlow : Bool
  time : Nat
  fatalCode : Byte
  causes : List Nat
  startDue : Bool
  restart : Bool
  vrs : Tab Vr
  raises : Tab Raise
  trims : Tab Nat
  supplyBad : List Nat
  pkg : PkgState
  entering : Option Nat
  memWait : Bool
  energyRem : Tab Nat
deriving DecidableEq, Repr

def Power.reset : Power where
  vaon := false
  pwrgood := false
  octal := false
  testEn := false
  flashMode := 0
  resetN := false
  pll := false
  clocks := false
  errFatal := false
  thermtrip := false
  dieHold := 0
  uncHold := false
  gpio := 0
  gpioRef := 0
  meshPll := false
  meshSlow := false
  time := 0
  fatalCode := 0
  causes := []
  startDue := false
  restart := false
  vrs := []
  raises := []
  trims := []
  supplyBad := []
  pkg := .running
  entering := none
  memWait := false
  energyRem := []

/-! ## Wicket (chapter 12) -/

/-- The fuses of Table 1 of 12 that the part reads. -/
structure Fuses where
  secret : BitVec 256
  serial : W64
  vkeys : Tab (BitVec 256)
  okey : BitVec 256
  vrevoke : BitVec 4
  dbg : BitVec 4
  floors : Tab W64
deriving DecidableEq, Repr

/-- What a valid copy of the chain area (R366) and of the memory-health record (R361) holds. -/
structure ChainCopy where
  gen : Nat
  startSeq : Nat
  sealSeq : Nat
  sealDigest : BitVec 256
deriving DecidableEq, Repr

structure HealthCopy where
  gen : Nat
  entries : List HealthEntry
deriving DecidableEq, Repr

/-- A Selvedge record (R363-R367): the fields of its header, events, runtime log and signature. -/
structure BootRecord where
  isSealed : Bool
  prevSealed : Bool
  chainSrc : Nat
  healthBad : Bool
  certOk : Bool
  bootId : BitVec 128
  bootSeq : Nat
  prevSeq : Nat
  prevDigest : BitVec 256
  device : BitVec 256
  cause : Nat
  fatal : Byte
  debug : Byte
  chanset : Nat
  imgslots : Byte
  startfail : Byte
  sealTime : W64
  mrs : Tab (BitVec 256)
  count : Nat
  events : List Byte
  rtCount : Nat
  rt : List Byte
  sig : List Byte
deriving DecidableEq, Repr

/-- Wicket's SRAM (R346), with fuses and the bytes of the boot flash (R350): the record, the one that a start-up builds before its step
5, the image bodies copied to Wicket's SRAM and Louvre's instruction memory by type (R353), the largest STARTSEQ, security versions and slot of what runs, the
allow-list, configuration and certificate, the DRBG's requests, key generations and BOOTKEY (R358), the requester served
last, the management nonce waiting, the last quote made for it and what its next private read returns, how many in-band interrupts it has raised (R377), and the chain update SEAL leaves due. `pc`, `g` and `sram` are its core's program counter and
general registers and the bytes of its SRAM. -/
structure Wicket where
  pc : W64
  g : Tab W64
  sram : List Host.Cell
  fuses : Fuses
  flash : List Host.Cell
  running : Bool
  record : Option BootRecord
  draft : Option BootRecord
  bodies : Tab (List Byte)
  startSeq : Nat
  svns : Tab Nat
  slot : Nat
  allow : List (BitVec 256)
  config : W64
  cert : List Byte
  entropyBad : Bool
  draws : Nat
  served : Nat
  nonce : Option (BitVec 256)
  quote : List Byte
  quoteReady : Bool
  quoteRefused : Bool
  answer : List Byte
  ibis : Nat
  gens : Tab Nat
  bootKey : BitVec 256
  chainDue : Bool
  firmware : BitVec 256
  maps : List ((BitVec 256 × Nat × W64) × MapChoice)
deriving DecidableEq, Repr

/-- Wicket with nothing in its SRAM; fuses unblown and the flash empty (DESIGN CHOICE, log 2). -/
def Wicket.reset : Wicket where
  pc := 0
  g := []
  sram := []
  fuses := ⟨0, 0, [], 0, 0, 0, []⟩
  flash := []
  running := false
  record := none
  draft := none
  bodies := []
  startSeq := 0
  svns := []
  slot := 0
  allow := []
  config := 0
  cert := []
  entropyBad := false
  draws := 0
  served := 2
  nonce := none
  quote := []
  quoteReady := false
  quoteRefused := false
  answer := []
  ibis := 0
  gens := []
  bootKey := 0
  chainDue := false
  firmware := 0
  maps := []

/-! ## Interrupt router (chapter 16) -/

/-- The router beside its registers: order in which sources became pending (R453), taker of each active source (R454), presented
source of each core's slot (secure 0, normal 1, virtual 2) by 3 x core + slot, virtual-mode events not yet handled, residency
changes postponed while RUN is 0 (R463), the virtual CPU resident on each core, held by Louvre (R419), the normal watchdog in its
first stage, its second, or stopped (R462). -/
structure Irt where
  age : Tab Nat
  next : Nat
  taker : Tab (Nat × Nat)
  shown : Tab Nat
  late : List Nat
  lateRes : List (Option Nat × Option Nat)
  resident : Tab Nat
  held : Bool
  nwdStage : Nat
deriving DecidableEq, Repr

def Irt.reset : Irt := ⟨[], 0, [], [], [], [], [], false, 0⟩

/-! ## The whole part -/

/-- The state. `lanes` is by 8 x complex + lane, `vis` by 256 x complex + instance, `iommus` by root complex and, from 8, by offload
complex. Tables list what differs from reset: `cores` by CR.COREID, `regs` by register address, `l2` and the homes by line
number (PA >> 6), `llc` by slice x 32768 + set x 16 + way, `keys` by owner. `pending` is the model's own queue of commands and
`free` its own counter of uses of free values (DESIGN CHOICE, log 1); neither is the manual's. `stalled` is its own too: a command has met a request
that must wait, and does nothing yet (R422). `qos` is the class that the transactions of the command being carried out have (R254). `pm` holds the counts of each stop's present window (R472). -/
structure State where
  pending : List Instr
  free : Nat
  stalled : Bool
  qos : Nat
  cores : Tab Core
  regs : Tab W64
  mem : List Host.Cell
  notes : Tab LineNote
  llc : Tab LlcWay
  dirs : Tab DirEnt
  dirUse : List Nat
  victims : List Victim
  txns : Tab Txn
  homeq : List QReq
  fills : List FillMsg
  ownc : List OwnLine
  keys : Tab MemKey
  mcs : Tab Mc
  vlts : Tab Vlt
  links : Tab Link
  rings : Tab ErrRing
  heldReqs : List HeldReq
  map : Option PubMap
  power : Power
  irt : Irt
  pm : Tab (Tab Nat)
  rcs : Tab Rc
  iommus : Tab Iommu
  lanes : Tab Lane
  vis : Tab Vi
  wicket : Wicket
deriving DecidableEq, Repr

/-- Why a run stops with a fault. No command does: every error of the part is a state of the part (DESIGN CHOICE, log 4). -/
inductive Fault
  /-- A stop of the whole machine that no command raises: the manual names none. Safe. -/
  | never
deriving DecidableEq, Repr

/-- Why a command is not carried out. -/
inductive Refusal
  /-- Raised by an arm of `exec` whose command has no meaning yet. Safe: it stops. -/
  | notModelled (mnemonic : String)
deriving DecidableEq, Repr

/-- The part with no supply: every field at its reset value (chapter 18; where the manual gives none, DESIGN CHOICE, log 2). -/
def State.reset : State where
  pending := []
  free := 0
  stalled := false
  qos := 0
  cores := []
  regs := []
  mem := []
  notes := []
  llc := []
  dirs := []
  dirUse := []
  victims := []
  txns := []
  homeq := []
  fills := []
  ownc := []
  keys := []
  mcs := []
  vlts := []
  links := []
  rings := []
  heldReqs := []
  map := none
  power := Power.reset
  irt := Irt.reset
  pm := []
  rcs := []
  iommus := []
  lanes := []
  vis := []
  wicket := Wicket.reset

end Sys2Proof.Machine
end

