-- ==== Sys2Proof/Machine/Ops.lean ====
section
/-! DEFINITION. The named operations: register files, control registers, on-chip registers, memory bytes, error records, taking
an exception and returning from one. -/

namespace Sys2Proof.Machine

abbrev Result := Host.Outcome State Fault Refusal

/-- A result: the state changes and the machine goes on. -/
def done (s : State) : Result := .next s

/-- A fatal error has stopped every functional clock: queues stand still, and no write reaches memory (R319). -/
def State.frozen (s : State) : Bool := s.power.errFatal && !s.power.clocks

/-- A result of a unit that a fatal error stops. -/
def doneRun (s t : State) : Result := .next (if s.frozen then s else t)

/-- The same, unless the command met a request that must wait: then nothing is done yet (R422). -/
def doneOr (s t : State) : Result := .next (if t.stalled ∨ s.frozen then s else t)

/-- Blocks that run only from the root PLL have a clock (R37). -/
def State.rootClock (s : State) : Bool := s.power.clocks && s.power.pll

/-! ## Cores and their registers -/

/-- Core `c`; a core not listed is in its reset state. -/
def State.core (s : State) (c : Nat) : Core := lookD Core.reset s.cores c

/-- The state with core `c` replaced. -/
def State.setCore (s : State) (c : Nat) (k : Core) : State := { s with cores := put s.cores c k }

/-- The state with core `c` changed by `f`. -/
def State.onCore (s : State) (c : Nat) (f : Core → Core) : State := s.setCore c (f (s.core c))

/-- General register `r`; g0 reads as zero (R48). -/
def Core.gr (k : Core) (r : RegNo) : W64 := if r = 0 then 0 else lookD 0 k.g r.toNat

/-- General register `r` written; a write of g0 is discarded (R48). -/
def Core.wg (k : Core) (r : RegNo) (v : W64) : Core := if r = 0 then k else { k with g := store 0 k.g r.toNat v }

/-- Vector register. -/
def Core.vr (k : Core) (r : Nat) : W512 := lookD 0 k.v (r % 32)

def Core.wv (k : Core) (r : Nat) (x : W512) : Core := { k with v := store 0 k.v (r % 32) x }

/-- Floating register: bits 63-0 of the vector register (R48). -/
def Core.fr (k : Core) (r : RegNo) : W64 := (k.vr r.toNat).setWidth 64

/-- A scalar floating result: low bits written, every higher bit zero (R49). -/
def Core.wf (k : Core) (r : RegNo) (x : W64) : Core := k.wv r.toNat (x.setWidth 512)

/-- Mask register. -/
def Core.mr (k : Core) (r : BitVec 3) : W512 := lookD 0 k.m r.toNat

def Core.wm (k : Core) (r : BitVec 3) (x : W512) : Core := { k with m := store 0 k.m r.toNat x }

/-! ## The vector queue (R133-R137) -/

/-- The queue drains through the last entry that writes one of these registers. -/
def Core.vqWait (k : Core) (vs ms : List Nat) : Core :=
  let hit (e : VqEnt) : Bool := e.vs.any vs.contains || e.ms.any ms.contains
  { k with vq := (k.vq.reverse.takeWhile (fun e => !hit e)).reverse }

/-- A released instruction enters the queue of 8 (R136); its oldest entry completes where it is full. -/
def Core.vqPush (k : Core) (e : VqEnt) : Core := { k with vq := ((k.vq ++ [e]).reverse.take 8).reverse }

/-- The queue drains altogether: every released instruction has reported its flags (R59, R135). -/
def Core.vqDrain (k : Core) : Core := { k with vq := [] }

/-! ## CR.STATUS -/

def Core.pl (k : Core) : Nat := fld k.status 0 2
def Core.secure (k : Core) : Bool := bitAt k.status 2
def Core.ie (k : Core) : Bool := bitAt k.status 3

/-- The die of a core (R4): 0 to 3. -/
def dieOf (c : Nat) : Nat :=
  let t := c / 2
  (if t % 12 < 6 then 0 else 1) + (if t / 12 < 4 then 0 else 2)

/-! ## Control registers -/

/-- A control register as last written and in effect without the writes pending. -/
def Core.crBase (k : Core) (key : Nat) : W64 := lookD (crReset (key % 0x1000)) k.cr key

/-- A control register written at once. -/
def Core.crPut (k : Core) (key : Nat) (v : W64) : Core := { k with cr := put k.cr key v }

/-- A register after a class D write takes effect: the bits it writes change (R6, R7). -/
def PendD.over (p : PendD) (old : W64) : W64 := (old &&& p.keep) ||| (p.val &&& ~~~p.keep)

/-- An instruction at this position sees the new value of a write in its window; each instruction sees one value throughout
(R57). -/
def PendD.seen (p : PendD) : Bool := Config.seesNew p.use p.num p.left

/-- The value in effect for an instruction: inside the window of a class D write either value (R57). -/
def Core.crEff (k : Core) (key : Nat) : W64 :=
  k.pendD.foldl (fun acc p => if p.num = key ∧ p.seen then p.over acc else acc) (k.crBase key)

/-- The value most recently written in program order (R59). -/
def Core.crLast (k : Core) (key : Nat) : W64 :=
  let d := k.pendD.foldl (fun acc p => if p.num = key then p.over acc else acc) (k.crBase key)
  (k.pendS.foldl (fun acc p => if p.1 = key then p.2 else acc) d)

/-- Control register `n` of core `c`, in the bank of its world, as it is in effect now. -/
def State.cr (s : State) (c n : Nat) : W64 :=
  let k := s.core c
  k.crEff (crKey n k.secure)

/-- CR.OWNER in effect. -/
def Core.owner (k : Core) : Owner := (k.crBase 0x310).setWidth 12

/-- CR.STATUS.UOPEN in effect: a class D write of it may be pending (R55, R57). -/
def Core.uopen (k : Core) : Bool :=
  k.pendD.foldl (fun acc p => if p.num = 0 ∧ p.seen then bitAt p.val 4 else acc) (bitAt k.status 4)

/-- A core runs a compartment (R52). -/
def Core.compartment (k : Core) : Bool := 2 ≤ k.owner.toNat && k.owner.toNat ≤ 4094 && !k.secure

/-- A predictor clear (R183): every structure, for every context, and the context table. -/
def Core.predClear (k : Core) : Core := { k with pred := Pred.empty }

/-- The identity of the running context (R182). -/
def runningCtx (k : Core) (idx : Nat) : PredCtx :=
  ⟨idx, k.secure, k.owner, fld (k.crBase 0x221) 0 16, fld (k.crBase (crKey 0x122 k.secure)) 0 16⟩

def sameCtx (x y : PredCtx) : Bool := x.secure == y.secure && x.owner == y.owner && x.vmid == y.vmid && x.asid == y.asid

/-- The index of the running context, if it holds one. -/
def ctxIdx (k : Core) : Option Nat := (k.pred.ctxs.find? (fun x => sameCtx x (runningCtx k 0))).map (·.idx)

/-- Every entry that carries an index is invalidated (R182, R184). -/
def Pred.drop (p : Pred) (i : Nat) : Pred :=
  let keep (l : List PredEnt) : List PredEnt := l.filter (fun e => e.idx != i)
  { p with zero := keep p.zero, main := keep p.main, ind := keep p.ind, base := keep p.base, tagged := p.tagged.map keep,
           ras := p.ras.filter (fun x => x.1 != i) }

/-- A context index of 0 to 15 for an identity that holds none: a free one, or the least recently used with its entries
invalidated (R182). -/
def freshIndex (p : Pred) : Pred × Nat :=
  match (List.range 16).find? (fun i => p.ctxs.all (fun x => x.idx != i)) with
  | some i => (p.drop i, i)
  | none =>
    match p.ctxs.getLast? with
    | some x => ({ p.drop x.idx with ctxs := p.ctxs.filter (fun y => y.idx != x.idx) }, x.idx)
    | none => (p, 0)

/-- The running context takes an index where it holds none, and is the most recently used (R182). -/
def Core.useCtx (k : Core) : Core :=
  match k.pred.ctxs.find? (fun x => sameCtx x (runningCtx k 0)) with
  | some x => { k with pred := { k.pred with ctxs := x :: k.pred.ctxs.filter (fun y => y.idx != x.idx) } }
  | none => let (p, i) := freshIndex k.pred; { k with pred := { p with ctxs := runningCtx k i :: p.ctxs } }

/-- One class D write taking effect. CR.STATUS takes only UOPEN (R68). CR.SMPBASE captures the writer's identity (R470). -/
def Core.applyD (k : Core) (p : PendD) : Core :=
  if p.num = 0 then { k with status := setBit k.status 4 (bitAt p.val 4) }
  else if p.num = 0xA1 then
    let st := k.crBase 0xA3
    let st := setFld (setFld (setFld st 32 12 k.owner.toNat) 44 1 (b2n k.secure)) 45 2 k.pl
    (k.crPut 0xA1 (p.over (k.crBase 0xA1))).crPut 0xA3 st
  else k.crPut p.num (p.over (k.crBase p.num))

/-- The marked entries of a regime leave the TLBs and the table-entry cache (R209). -/
def Core.markedDrop (k : Core) (r : Regime) : Core :=
  { k with tlb := k.tlb.filter (fun e => !(e.marked && decide (e.regime = r))),
           ptrs := k.ptrs.filter (fun e => !(e.marked && decide (e.regime = r))) }

/-- Entries a casement write removes when it takes effect (R209). The current CR.VMID is the one in effect at the write's place among the
pending writes of the CTLSYNC (DEDUCED, log 95). -/
def Core.casementDrop (k : Core) (n : Nat) : Core :=
  if 0x130 ≤ n % 0x1000 ∧ n % 0x1000 < 0x140 then k.markedDrop (if n < 0x1000 then Regime.normal else Regime.secure)
  else if 0x330 ≤ n ∧ n < 0x340 then k.markedDrop .pl3
  else if 0x230 ≤ n ∧ n < 0x240 then
    let v := fld (k.crBase 0x221) 0 16
    { k with tlb := k.tlb.filter (fun e => !(decide (e.regime = .normal) && decide (e.vmid = v) && (e.only2 || e.s2.isSome))
        && !(e.marked && decide (e.regime = .pl2))),
             ptrs := k.ptrs.filter (fun e => !(decide (e.regime = .normal) && decide (e.vmid = v) && (e.only2 || e.dep2))) }
  else k

/-- One class S write taking effect; a change of CR.OWNER clears the predictors (R183). CR.CLKSEL.SRC waits for CTLSYNC unless
`sync` (R40, R60). -/
def Core.applyS (sync : Bool) (k : Core) (p : Nat × W64) : Core :=
  if p.1 = 0x211 then
    if sync then k.crPut 0x211 (setBit (k.crBase 0x211) 0 (bitAt p.2 0)) else { k with pendS := k.pendS ++ [p] }
  else
    let k' := (k.crPut p.1 p.2).casementDrop p.1
    if p.1 = 0x310 ∧ (p.2.setWidth 12 : Owner) ≠ k.owner then k'.predClear else k'

/-- Every pending write takes effect (R60). -/
def Core.applyAll (k : Core) (sync : Bool) : Core :=
  let ds := k.pendD
  let ss := k.pendS
  let k := ds.foldl Core.applyD { k with pendD := [], pendS := [] }
  ss.foldl (Core.applyS sync) k

/-- One position in program order passes (R57): writes whose window ends take effect. -/
def Core.position (k : Core) : Core :=
  let aged := k.pendD.map (fun p => { p with left := p.left - 1 })
  let k' := { k with pendD := aged.filter (fun p => p.left != 0) }
  (aged.filter (fun p => p.left == 0)).foldl Core.applyD k'

/-- Bits that hardware sets in a register, in its value and in writes of it still pending, so that none is lost. -/
def Core.orBits (k : Core) (key : Nat) (bits : W64) : Core :=
  { k with cr := put k.cr key (k.crBase key ||| bits),
           pendD := k.pendD.map (fun p => if p.num = key then { p with val := p.val ||| bits } else p) }

/-- Sticky flags set by an instruction (R55: never cleared by one). -/
def Core.orFlags (k : Core) (key : Nat) (flags : BitVec 5) : Core := k.orBits key (flags.setWidth 64 <<< 8)

/-! ## On-chip registers -/

/-- The register named, as stored. -/
def State.reg (s : State) (i : RegId) (n k j : Nat) : W64 :=
  match look s.regs (regAddr i n k j) with
  | some v => v
  | none => (defOf i).elim 0 RegDef.resetValue

/-- The register named, replaced by hardware. -/
def State.setReg (s : State) (i : RegId) (n k j : Nat) (v : W64) : State :=
  { s with regs := put s.regs (regAddr i n k j) v }

/-- A field of a register. -/
def State.regF (s : State) (i : RegId) (n k j lo w : Nat) : Nat := fld (s.reg i n k j) lo w

/-- A field of a register set by hardware. -/
def State.setRegF (s : State) (i : RegId) (n k j lo w v : Nat) : State :=
  s.setReg i n k j (setFld (s.reg i n k j) lo w v)

/-- A saturating count in a register (R7: never lost). -/
def State.bump (s : State) (i : RegId) (n k j lo w amount : Nat) : State :=
  s.setRegF i n k j lo w (satAdd w (s.regF i n k j lo w) amount)

/-- CR.TIME (R461). -/
def State.now (s : State) : Nat := s.power.time

/-- One use of a free value. -/
def State.useFree (s : State) : State := { s with free := s.free + 1 }

/-! ## Memory bytes -/

/-- The byte at a physical address; a byte not listed is zero, as the fill leaves it (R308). -/
def readByte (m : List Host.Cell) (a : Nat) : Byte := lookD 0 m a

/-- A byte written; zero is not listed, so that equal memories are equal data. -/
def writeByte (m : List Host.Cell) (a : Nat) (b : Byte) : List Host.Cell := store 0 m a b

/-- Strictly rising addresses, no listed zero. -/
def Memory.wf : List Host.Cell → Bool
  | [] => true
  | [(_, b)] => b != 0
  | (a, b) :: (a', b') :: t => decide (a < a') && b != 0 && Memory.wf ((a', b') :: t)

/-- The 64 bytes of line `l` as stored. -/
def readStored (m : List Host.Cell) (l : Nat) : W512 :=
  BitVec.ofNat 512 (leNat ((List.range 64).map (fun i => readByte m (64 * l + i))))

/-- The 64 bytes of line `l` written. -/
def writeStored (m : List Host.Cell) (l : Nat) (d : W512) : List Host.Cell :=
  (List.range 64).foldl (fun m i => writeByte m (64 * l + i) (byteOf d i)) m

/-! ## Error records -/

/-- Record classes (R301). -/
inductive ErrClass
  | corrected | notice | deferred | consumed | fatal
deriving DecidableEq, Repr

def ErrClass.code : ErrClass → Nat
  | .corrected => 0 | .notice => 1 | .deferred => 2 | .consumed => 3 | .fatal => 4

/-- Which ring a source logs in: a controller its own, every other the uncore ring, number 16 (R310, R311). -/
def ringOf (source inst : Nat) : Nat := if source = 5 ∧ inst < 16 then inst else 16

/-- The register instance that holds a ring's pointers: MC[n], or MESH[132]. -/
def ringPtr (r : Nat) : RegId × Nat := if r < 16 then (.mcElogptr, r) else (.meshElogptr, 132)
def ringOvf (r : Nat) : RegId × Nat := if r < 16 then (.mcElogovf, r) else (.meshElogovf, 132)
def ringSel (r : Nat) : RegId × Nat := if r < 16 then (.mcElogsel, r) else (.meshElogsel, 132)

/-- An event on a global source: P is set and its age kept; an event that finds P set merges (R451, R453). An event of a
virtual-mode source is noted for the router, which delivers it (R458). -/
def State.raiseSource (s : State) (n : Nat) : State :=
  let old := s.reg .irtSrc 0 n 0
  let never : Bool := (8 ≤ n && n ≤ 15) || (92 ≤ n && n ≤ 95) || (144 ≤ n && n ≤ 255)
  if never ∨ bitAt old 1 then s
  else
    { s.setReg .irtSrc 0 n 0 (setBit old 1 true) with
      irt := { s.irt with age := put s.irt.age n s.irt.next, next := s.irt.next + 1,
                          late := if bitAt old 4 then s.irt.late ++ [n] else s.irt.late } }

/-- The uncore pending bits follow a record (R302), raising sources 3 and 4 as they rise (R451). -/
def State.errSig (s : State) (k : ErrClass) : State :=
  let old := s.reg .meshErrsig 132 0 0
  match k with
  | .corrected | .notice =>
    let s' := s.setReg .meshErrsig 132 0 0 (setBit old 0 true)
    if bitAt old 0 then s' else s'.raiseSource 3
  | .deferred | .consumed =>
    let s' := s.setReg .meshErrsig 132 0 0 (setBit old 1 true)
    if bitAt old 1 then s' else s'.raiseSource 4
  | .fatal => s.setReg .meshErrsig 132 0 0 (setBit old 2 true)

/-- An error record (R310, R311): the slot at WR, then WR, COUNT, RD and OVF. -/
def State.logErr (s : State) (k : ErrClass) (source inst code pa : Nat) (owner : Nat) (detail : W64) : State :=
  let r := ringOf source inst
  let ring := lookD ErrRing.reset s.rings r
  let w0 : W64 := ring.seq.setWidth 64 ||| (BitVec.ofNat 64 k.code <<< 32) ||| (BitVec.ofNat 64 source <<< 36)
    ||| (BitVec.ofNat 64 inst <<< 40) ||| (BitVec.ofNat 64 code <<< 52)
  let w1 : W64 := BitVec.ofNat 64 (pa % 2 ^ 52) ||| (BitVec.ofNat 64 owner <<< 52)
  let w2 : W64 := BitVec.ofNat 64 s.now
  let (pi, pn) := ringPtr r
  let (oi, on) := ringOvf r
  let ptr := s.reg pi pn 0 0
  let wr := fld ptr 0 9
  let full := fld ptr 32 10 = 512
  let ptr' := setFld ptr 0 9 (wr + 1)
  let ptr' := if full then setFld ptr' 16 9 (fld ptr 16 9 + 1) else setFld ptr' 32 10 (fld ptr 32 10 + 1)
  let s1 := { s with rings := put s.rings r { ring with recs := put ring.recs wr (w0, w1, w2, detail), seq := ring.seq + 1 } }
  let s2 := s1.setReg pi pn 0 0 ptr'
  let s3 := if full then s2.bump oi on 0 0 0 16 1 else s2
  s3.errSig k

/-- A fatal error (R319): the record where the mesh still works, the first fatal code, the clocks stopped, ERR_FATAL_N low. -/
def State.fatal (s : State) (code : Nat) (logged : Bool) (source inst pa : Nat) (detail : W64) : State :=
  let s := if logged then s.logErr .fatal source inst code pa 4095 detail else s.errSig .fatal
  let p := s.power
  { s with power := { p with fatalCode := if p.fatalCode = 0 then BitVec.ofNat 8 code else p.fatalCode,
                             clocks := false, errFatal := true } }

/-! ## Counting events (chapter 17) -/

/-- Whether the counters and the sampling unit of a core run for what a world and owner do (R340). -/
def State.countingFor (s : State) (c : Nat) (secure : Bool) (owner : Nat) : Bool :=
  let dbg := (s.core c).crBase 0x318
  if secure then bitAt dbg 3 && bitAt (s.reg .ownDbgauth 0 0 0) 3
  else if 2 ≤ owner ∧ owner ≤ 4094 then bitAt dbg 5
  else true

/-- Whether they run in its present context. -/
def State.countingAllowed (s : State) (c : Nat) : Bool := s.countingFor c (s.core c).secure (s.core c).owner.toNat

/-- The U, K, H, S filter of PMSEL and SMPCFG: bits 0 to 3 (R465). -/
def passesFilter (u : Nat) (pl : Nat) (secure : Bool) : Bool :=
  if secure then u.testBit 3 else u.testBit pl

/-- The sampling countdown (R469): an occurrence that takes it to zero makes its instruction the sampled one. -/
def Core.sampleEvent (k : Core) (ev amount : Nat) (w : Ident) : Core :=
  let cfg := k.crEff 0xA0
  if bitAt cfg 10 ∧ fld cfg 0 10 = ev ∧ passesFilter (fld cfg 11 4) w.pl w.secure then
    let left := if k.smpLeft = 0 then fld cfg 16 32 else k.smpLeft
    if left ≤ amount then { k with smpLeft := fld cfg 16 32, smpHit := true } else { k with smpLeft := left - amount }
  else k

/-- Local source 8: an overflow with its interrupt enabled (R466). -/
def overflowPending (s : State) (c : Nat) : Bool :=
  let k := s.core c
  (List.range 8).any (fun n => bitAt (k.crBase 0x82) n && bitAt (k.crEff (0x90 + n)) 14)

/-- A local source becomes pending: its age is taken (R455). -/
def localAge (s : State) (c n : Nat) : State :=
  { s.onCore c (fun k => { k with lage := put k.lage n s.irt.next }) with irt := { s.irt with next := s.irt.next + 1 } }

/-- An event of a core that an instruction of a level, world and owner causes, counted by every programmable counter that selects it
(R340, R465, R466) and by the sampling unit. -/
def State.eventFor (s : State) (c ev amount : Nat) (w : Ident) : State :=
  let k := s.core c
  let ctl := k.crEff 0x80
  if bitAt ctl 9 ∨ ¬ s.countingFor c w.secure w.owner ∨ amount = 0 then s
  else
    let t := s.onCore c (fun k =>
      (List.range 8).foldl (fun k n =>
        let sel := k.crEff (0x90 + n)
        if bitAt ctl n ∧ fld sel 0 10 = ev ∧ passesFilter (fld sel 10 4) w.pl w.secure then
          let v := (k.crBase (0x88 + n)).toNat + amount
          let k := k.crPut (0x88 + n) (BitVec.ofNat 64 (v % 2 ^ 48))
          if v < 2 ^ 48 then k else k.orBits 0x82 (1#64 <<< n)
        else k) (k.sampleEvent ev amount w))
    if overflowPending t c ∧ ¬ overflowPending s c then localAge t c 8 else t

/-- An event of what the core runs now. -/
def State.event (s : State) (c ev amount : Nat) : State :=
  let k := s.core c
  s.eventFor c ev amount ⟨k.secure, k.owner.toNat, 0, k.pl⟩

/-- Cycles of a core's present context: CR.CYCLE and the CYCLES event (R340, R464, R467). -/
def State.countCycles (s : State) (c n : Nat) : State :=
  let ctl := (s.core c).crEff 0x80
  let s := if bitAt ctl 8 ∧ ¬ bitAt ctl 9 ∧ s.countingAllowed c then
      s.onCore c (fun k => k.crPut 0x81 (k.crBase 0x81 + BitVec.ofNat 64 n)) else s
  let s := s.event c 0x001 n
  let s := s.event c 0x020 (min n (Config.stallCycles s.free))
  if (s.core c).wide then s.event c 0x021 n else s

/-- `n` cycles pass with an instruction, and its activity is posted (R416). -/
def State.cyclesPassN (s : State) (c n : Nat) : State :=
  let s := (s.countCycles c n).onCore c (fun k =>
    let o := k.owner.toNat
    { k with activity := put k.activity o (lookD 0 k.activity o + Config.activityWeight s.free) })
  s.useFree

/-- The cycles that pass with an instruction; how many is free. -/
def State.cyclesPass (s : State) (c : Nat) : State := s.cyclesPassN c (Config.cycles s.free)

/-! ## Samples (R469) -/

/-- CR.TIME as every core sees it: six counts behind (R461). -/
def State.coreTime (s : State) : Nat := s.power.time - 6

/-- Bytes of a field placed in a 64-byte record. -/
def field512 (v : W64) (off : Nat) : W512 := (v.setWidth 512) <<< (8 * off)

/-- What a sample record (Table 2 of 17) holds of the context in which its instruction retires. -/
def Core.sampleHead (k : Core) (time : Nat) : W512 :=
  let flags := k.pl + b2n k.secure * 4 + b2n k.slot.isSome * 8
  field512 k.pc 0 ||| field512 (BitVec.ofNat 64 time) 24 ||| field512 (BitVec.ofNat 64 (fld (k.crEff 0xA0) 0 10)) 36
    ||| field512 (BitVec.ofNat 64 flags) 38 ||| field512 (k.owner.setWidth 64) 40
    ||| field512 (BitVec.ofNat 64 (fld (k.crEff (crKey 0x122 k.secure)) 0 16)) 42
    ||| field512 (BitVec.ofNat 64 (fld (k.crBase 0x221) 0 16)) 44

/-- The instruction at the program counter retires: it is counted, and sampled where it was to be. -/
def State.retired (s : State) (c : Nat) : State :=
  (s.event c 0x002 1).onCore c (fun k =>
    if k.smpHit then { k with smpHit := false, smpDue := k.smpDue ++ [k.sampleHead s.coreTime] } else k)

/-! ## Exceptions -/

/-- What an exception reports (R62): cause, route level of the normal world, EADDR, DETAIL, WRITE, FETCH, VEC, EIPA, and
whether the restart point is the next instruction (R61). -/
structure Exc where
  code : Nat
  route : Nat
  eaddr : W64
  detail : Nat
  write : Bool
  fetch : Bool
  vec : Bool
  eipa : W64
  nextPc : Bool
deriving DecidableEq, Repr

/-- An exception with no access behind it. -/
def Exc.plain (code route : Nat) (eaddr : W64) (detail : Nat) : Exc := ⟨code, route, eaddr, detail, false, false, false, 0, false⟩

/-- The level a cause is routed to in the core's world (R62): in the secure world PL0 and PL1 causes go to PL1, PL2 causes to
PL3; PRIV never goes from the normal world to PL3. -/
def routeIn (secure : Bool) (route : Nat) : Nat :=
  if secure then (if route ≤ 1 then 1 else 3) else (if route ≤ 1 then 1 else if route = 3 then 2 else route)

/-- The level before redirection and the taking level (R63, R52). GATE and secure-group interrupts pass `direct` = 3. -/
def takingLevel (k : Core) (route : Nat) : Nat × Nat :=
  let t := max route k.pl
  if t = 2 ∧ 2 ≤ k.owner.toNat ∧ k.owner.toNat ≤ 4094 then (2, 3) else (t, t)

/-- The base number of a level's exception registers (R55). -/
def excBase (t : Nat) : Nat := 0x100 * t

/-- ECAUSE (chapter 02). -/
def ecause (e : Exc) (from_ : Nat) (fromSec : Bool) (orig : Nat) : W64 :=
  BitVec.ofNat 64 (e.code + from_ * 2 ^ 6 + b2n fromSec * 2 ^ 8 + b2n e.vec * 2 ^ 9 + b2n e.write * 2 ^ 10
    + b2n e.fetch * 2 ^ 11 + orig * 2 ^ 12 + (e.detail % 2 ^ 16) * 2 ^ 16)

/-- Entry at a level (R64), with the restart address of R61: the exception registers of the level, the new status, the handler's
address. What was under way and has not retired is neither sampled nor counted as a retired branch (R467, R469). `kind` is the offset: 0x400 for an interrupt, 0x600 for GATE, none for a synchronous cause. -/
def Core.enter (k : Core) (t orig : Nat) (e : Exc) (kind : Option Nat) : Core :=
  let k := { k.applyAll false with smpHit := false, misp := [] }
  let sec' := t == 3 || k.secure
  let key (n : Nat) : Nat := crKey n sec'
  let b := excBase t
  let inSlot := k.slot.isSome
  let ds := inSlot && !e.nextPc
  let epc := if e.nextPc then (match k.slot with | some x => x | none => k.pc + 4) else k.pc
  let enpc := if ds then k.slot.getD 0 else 0
  let off := match kind with
    | some x => x
    | none => if t = k.pl ∧ sec' = k.secure then 0 else 0x200
  let worldChange := sec' != k.secure
  let flush := worldChange || (bitAt (k.crBase (crKey 0x110 k.secure)) 1 && decide (t ≠ k.pl))
  let st := setBit k.status 5 ds
  let cause := ecause e k.pl k.secure orig
  let k := ((((k.crPut (key b) st).crPut (key (b + 1)) epc).crPut (key (b + 2)) enpc).crPut (key (b + 3)) cause).crPut
    (key (b + 4)) e.eaddr
  let k := if t = 2 then k.crPut 0x207 e.eipa else k
  let status := setFld (setFld (setFld k.status 0 2 t) 3 1 0) 4 1 0
  let status := if t = 3 then setFld status 2 1 1 else status
  let k := { k with status := status, pc := (k.crBase (key (b + 5)) &&& ~~~0xFFF#64) + BitVec.ofNat 64 off, slot := none }
  if flush then k.predClear else k

/-- A synchronous exception of core `c` (R61-R64, R195). Its 12 cycles count to the context being left (R340). One whose restart point is the
next instruction is of an instruction that has retired (R61). -/
def State.except (s : State) (c : Nat) (e : Exc) : State :=
  let s := if e.nextPc then s.retired c else s
  let k := s.core c
  let (orig, t) := takingLevel k (if e.code = 0x20 then 3 else routeIn k.secure e.route)
  let s := (s.event c 0x009 1).countCycles c 12
  s.onCore c (fun k => k.enter t orig e (if e.code = 0x20 then some 0x600 else none))

/-- The return of ERET at level `t` into the world of the core, or of GATE.RET (R65, R119): STATUS from ESTATUS, the slot
continuation when DS is 1. The low two bits of the saved addresses are taken as zero, so that no PC is misaligned (R78; DESIGN CHOICE,
log 84). -/
def Core.leave (k : Core) (t : Nat) : Core :=
  let k := k.applyAll false
  let key (n : Nat) : Nat := crKey n k.secure
  let b := excBase t
  let st := k.crBase (key b)
  let ds := bitAt st 5
  let flush := bitAt (k.crBase (key 0x110)) 1 && decide (fld st 0 2 ≠ k.pl)
  let at_ (n : Nat) : W64 := k.crBase (key n) &&& ~~~3#64
  let k' := { k with status := st, pc := at_ (b + 1), slot := if ds then some (at_ (b + 2)) else none }
  if flush then k'.predClear else k'

/-- PRIV for an instruction that needs level `need` (R62, R117): the required level is reported, the secure world has no PL2. -/
def privExc (k : Core) (word : W32) (need : Nat) : Exc :=
  let need := if k.secure ∧ need = 2 then 3 else need
  Exc.plain 0x02 need (word.setWidth 64) need

/-- ILLEGAL (R82). -/
def illegalExc (word : W32) : Exc := Exc.plain 0x01 1 (word.setWidth 64) 0

/-- ALIGN at an address. -/
def alignExc (va : W64) (write : Bool) : Exc := { Exc.plain 0x03 1 va 0 with write := write }

/-- One instruction retires in `n` cycles: the next address, one position, its events. -/
def State.retireIn (s : State) (c n : Nat) : State :=
  ((s.retired c).onCore c (fun k => { k with pc := match k.slot with | some x => x | none => k.pc + 4, slot := none })).cyclesPassN c n

/-- One instruction retires in a free number of cycles. -/
def State.retire (s : State) (c : Nat) : State := s.retireIn c (Config.cycles s.free)

end Sys2Proof.Machine
end

