-- ==== Sys2Proof/Machine/Places.lean ====
section
/-! DEFINITION. Where a physical address lies: regions and decoder windows (R5, R261), slices (R227), the DRAM map (R277), and the
page table entry that covers it (R321-R325). -/

namespace Sys2Proof.Machine

/-- Regions of R5 Table 4. -/
inductive Region
  | dram | cxl
  | pcie (k : Nat)
  | ecam (k : Nat)
  | vault | regs | none
deriving DecidableEq, Repr

def regionOf (pa : Nat) : Region :=
  if pa < 0x40000000000 then .dram
  else if 0x100000000000 ≤ pa ∧ pa < 0x200000000000 then .cxl
  else if 0xC000000000000 ≤ pa ∧ pa < 0xD000000000000 then .pcie ((pa - 0xC000000000000) / 0x200000000000)
  else if 0xD000000000000 ≤ pa ∧ pa < 0xD000080000000 then .ecam ((pa - 0xD000000000000) / 0x10000000)
  else if 0xE000000000000 ≤ pa ∧ pa < 0xE00000C000000 then .vault
  else if 0xF000000000000 ≤ pa ∧ pa < 0xF000100000000 then .regs
  else .none

/-- DRAM, CXL windows and the vault (R200). -/
def Region.memory : Region → Bool
  | .dram | .cxl | .vault => true
  | _ => false

/-- The PCIe regions end after RC[7]'s 32 TiB. -/
def Region.ok : Region → Bool
  | .pcie k => k < 8
  | .none => false
  | _ => true

/-- Window `w` is enabled and holds `pa` (R261). -/
def inWindow (s : State) (w pa : Nat) : Bool :=
  let v := s.reg .meshWin 132 w 0
  let base := fld v 22 22 * 2 ^ 30
  bitAt v 0 && base ≤ pa && pa < base + fld v 1 21 * 2 ^ 30

/-- The populated extent (R5, R261). -/
def populated (s : State) (pa : Nat) : Bool :=
  match regionOf pa with
  | .dram => inWindow s 0 pa
  | .cxl => (List.range 4).any (fun k => inWindow s (1 + k) pa)
  | .pcie k => k < 8 && inWindow s (5 + k) pa
  | .ecam k => k < 8
  | .vault | .regs => true
  | .none => false

/-- The CXL root complex of an address. -/
def cxlRc (s : State) (pa : Nat) : Option Nat := (List.range 4).find? (fun k => inWindow s (1 + k) pa)

/-- Five-bit field `i` of a line address (R227). -/
def hashField (l i : Nat) : Nat := (l / 2 ^ (5 * i)) % 32

/-- The home slice of a line (R227). -/
def sliceOf (line : Nat) : Nat :=
  let h := (List.range 8).foldl (fun acc i => Nat.xor acc (hashField line i)) 0
  let h := Nat.xor h (Nat.xor (hashField line 8) (line / 2 ^ 45 % 2))
  32 * (line % 3) + h

/-- The set of a line within its slice (R227). -/
def setOf (line : Nat) : Nat := line % 2048

/-- A vault line (R263). -/
def isVault (line : Nat) : Bool := regionOf (64 * line) == .vault

/-! ## The DRAM map -/

/-- Parity of a line address under a mask (R277). -/
def maskParity (m : BitVec 36) (l : Nat) : Nat := b2n (parity (BitVec.ofNat 36 l &&& m))

/-- Bits of `l` selected by a mask, in ascending order, as a number. -/
def gather (m : BitVec 36) (l : Nat) : Nat :=
  let sel := (List.range 36).filter (fun i => bitAt m i)
  (sel.mapIdx (fun j i => (l / 2 ^ i % 2) * 2 ^ j)).sum

/-- Where a line lies on its channel (R277). -/
structure DramAt where
  chan : Nat
  sub : Nat
  bg : Nat
  bank : Nat
  rank : Nat
  row : Nat
  col : Nat
deriving DecidableEq, Repr

/-- The controller that serves map channel `c` in set code `set` (R269 Table 2). -/
def setChannel (set c : Nat) : Nat :=
  match set with
  | 0 => c
  | 1 => 2 * c
  | 2 => 2 * c + 1
  | n => 4 * c + (n - 3)

def mapBits (m : PubMap) (l lo n : Nat) : Nat :=
  ((List.range n).map (fun i => maskParity (nthD 0 m.masks (lo + i)) l * 2 ^ i)).sum

/-- The location of a line under the published map (R277). -/
def dramAt (m : PubMap) (line : Nat) : DramAt :=
  let l := line % 2 ^ m.n
  let cr := gather m.crmask l
  let c := if m.x8 then 6 else 7
  { chan := setChannel m.set (mapBits m l 0 m.chbits), sub := mapBits m l 4 1, bg := mapBits m l 5 3, bank := mapBits m l 8 2,
    rank := mapBits m l 10 m.rkbits, row := cr / 2 ^ c, col := cr % 2 ^ c * 16 }

/-- The controller of a DRAM line; 0 where no map is published. -/
def chanOf (s : State) (line : Nat) : Nat := (s.map.map (fun m => (dramAt m line).chan)).getD 0

/-- The mesh stop of a controller (R249 Table 1). -/
def mcStop (n : Nat) : Nat :=
  if n < 4 then 96 + n else if n < 8 then 100 + n else if n < 12 then 100 + n else 104 + n

/-- DETAIL of a DRAM record (R313 Table 6). -/
def dramDetail (s : State) (line dev symbols : Nat) (erase scrub : Bool) : W64 :=
  match s.map with
  | none => 0
  | some m =>
    let d := dramAt m line
    BitVec.ofNat 64 (dev + d.sub * 2 ^ 4 + d.rank * 2 ^ 5 + symbols * 2 ^ 8 + b2n erase * 2 ^ 13 + b2n scrub * 2 ^ 14
      + d.row * 2 ^ 16 + d.bg * 2 ^ 33 + d.bank * 2 ^ 36 + d.col * 2 ^ 38)

/-! ## Entries -/

def entState (e : W16) : Nat := fld e 12 3
def entOwner (e : W16) : Nat := fld e 0 12
def entLock (e : W16) : Bool := bitAt e 15

/-- The OWNER range of a state (R322 Table 1). -/
def ownerAllowed (st o : Nat) : Bool :=
  match st with
  | 0 | 1 => o == 0
  | 2 => o == 1
  | 3 | 4 => 2 ≤ o && o ≤ 4094
  | 5 => o ≤ 4094
  | _ => false

/-- The key owner of an entry (R322 Table 1). -/
def keyOwner (e : W16) : Option Nat :=
  if ¬ ownerAllowed (entState e) (entOwner e) then none else
  match entState e with
  | 1 | 4 => some 0
  | 2 => some 1
  | 3 => some (entOwner e)
  | _ => none

/-- The check of an access by a world and owner against an entry: the key owner, or the failure reason (R322, R323). -/
def checkEntry (e : W16) (secure : Bool) (o : Nat) : Except Nat Nat :=
  if ¬ ownerAllowed (entState e) (entOwner e) then .error 7
  else
    match entState e with
    | 0 => .error 0
    | 1 => if o = 0 ∨ secure then .ok 0 else .error 1
    | 2 => if secure then .ok 1 else .error 2
    | 3 => if o = entOwner e ∨ secure then .ok (entOwner e) else .error 1
    | 4 => if o = 0 ∨ o = entOwner e ∨ secure then .ok 0 else .error 1
    | _ => .error 3

/-- The table is in force (R325). -/
def tableLocked (s : State) : Bool := bitAt (s.reg .ownTlock 0 0 0) 0

/-- The owner that an error record names for a line that carries an entry: 4095 while the table is not in force (R311). -/
def recOwner (s : State) (e : W16) : Nat := if tableLocked s then entOwner e else 4095

/-- Region number and base of a page with an entry (R324). -/
def tableRegion (pa : Nat) : Option (Nat × Nat) :=
  match regionOf pa with
  | .dram => some (0, 0)
  | .cxl => some (1, 0x100000000000)
  | .vault => some (2, 0xE000000000000)
  | _ => none

def tableBase (s : State) (k : Nat) : Nat := fld (s.reg .ownTbase 0 k 0) 12 40 * 4096
def tablePages (s : State) (k : Nat) : Nat := fld (s.reg .ownTpages 0 k 0) 0 33

/-- The address of a page's entry, if the table covers it (R324, R325). -/
def entryAddr (s : State) (pa : Nat) : Option Nat :=
  match tableRegion pa with
  | none => none
  | some (k, base) =>
    let i := (pa - base) / 4096
    if i < tablePages s k then some (tableBase s k + 2 * i) else none

/-- A page that holds part of the table. -/
def inTable (s : State) (pa : Nat) : Bool :=
  (List.range 3).any (fun k =>
    let b := tableBase s k
    b ≤ pa / 4096 * 4096 + 4095 && pa / 4096 * 4096 < b + 2 * tablePages s k && tablePages s k != 0)

/-- Which agent's ownership cache checks a line (R327, R328), its deciding point (R329) and its record source and instance. -/
def ownAgent (s : State) (line : Nat) : Nat × Nat × Nat × Nat :=
  match regionOf (64 * line) with
  | .vault => (16 + sliceOf line, 1, 3, sliceOf line)
  | .cxl => let k := (cxlRc s (64 * line)).getD 0; (112 + k, 3, 6, k)
  | _ => let n := chanOf s line; (n, 0, 5, n)

/-- The owner of a page as an error record gives it: from the ownership cache of its agent, 4095 where none is known (R311). -/
def pageOwner (s : State) (line : Nat) : Nat :=
  if ¬ tableLocked s then 4095
  else
    match entryAddr s (64 * line) with
    | none => 4095
    | some a =>
      match s.ownc.find? (fun x => x.agent == (ownAgent s line).1 && x.line == a / 64) with
      | some x => entOwner (x.data.extractLsb' (8 * (a % 64)) 16)
      | none => 4095

end Sys2Proof.Machine
end

