-- ==== Sys2Proof/Machine/Mem.lean ====
section
/-! DEFINITION. How memory is held: controllers with write queue, encryption, line code and poison (R275-R296, R305), the vault
(R265) and CXL memory (R438, R439). -/

namespace Sys2Proof.Machine

/-! ## Window counters of a stop (R472) -/

/-- Count `k` of item `i` at a stop, while it counts and for its class (R254, R472). -/
def pmBump (s : State) (stop i k qos : Nat) : State :=
  let cfg := s.reg .pmWincfg stop 0 0
  if bitAt cfg 0 ∧ (¬ bitAt cfg 21 ∨ fld cfg 15 6 = qos) then
    let t := lookD [] s.pm stop
    { s with pm := put s.pm stop (put t i (lookD 0 t i + k)) }
  else s

/-! ## Keys -/

/-- The key of an owner's entry, if Wicket has loaded it (R291, R358). -/
def keyOf (s : State) (owner : Nat) : Option MemKey := look s.keys owner

/-- A line through the cipher of R289, with its first byte's address as the tweak. -/
def xtsLine (enc : Bool) (key : MemKey) (line : Nat) (d : W512) : W512 :=
  BitVec.ofNat 512 (leNat (xts enc (leBytes 64 key.toNat) (64 * line) (leBytes 64 d.toNat)))

/-- What a line reads as under a key (R289-R292). Memory is held as the plaintext of the key it was written under; the key that wrote
it gives it back, another decrypts its ciphertext, and a line the fill left is held as its ciphertext, zero where no error has altered it
(R294, R308). -/
def decrypt (key : MemKey) (under : Option MemKey) (line : Nat) (d : W512) : W512 :=
  match under with
  | none => xtsLine false key line d
  | some k => if k = key then d else xtsLine false key line (xtsLine true k line d)

/-! ## Memory controllers -/

def State.mc (s : State) (n : Nat) : Mc := lookD Mc.reset s.mcs n
def State.setMc (s : State) (n : Nat) (m : Mc) : State := { s with mcs := put s.mcs n m }
def State.note (s : State) (l : Nat) : LineNote := lookD LineNote.fresh s.notes l
def State.setNote (s : State) (l : Nat) (x : LineNote) : State := { s with notes := store LineNote.fresh s.notes l x }

/-- Size of the set in channels from its code (R269). -/
def setSize (set : Nat) : Nat := if set = 0 then 16 else if set ≤ 2 then 8 else 4

/-- First line of the spare region, the highest S MiB of DRAM (R315). -/
def spareBase (m : PubMap) : Nat := 2 ^ m.n - setSize m.set * 2 ^ 14

/-- The line that holds a DRAM line's data: a spare where a remap entry whose copy is made redirects it (R316). -/
def locOf (s : State) (n line : Nat) : Nat :=
  match (List.range 16).find? (fun k =>
      let e := s.reg .mcRemap n k 0
      bitAt e 0 && bitAt e 55 && fld e 1 36 == line) with
  | some k => (s.map.map (fun m => spareBase m + fld (s.reg .mcRemap n k 0) 37 18)).getD line
  | none => line

/-- Symbols per device: 8 on x4 modules, 16 on x8 (R293). -/
def symsPerDev (m : PubMap) : Nat := if m.x8 then 16 else 8

/-- The device marked for a line's rank and subchannel (R296). -/
def markedDev (s : State) (n line : Nat) : Option Nat :=
  match s.map with
  | none => none
  | some m =>
    let d := dramAt m line
    let v := s.reg .mcBaddev n d.sub 0
    if bitAt v (5 * d.rank + 4) then some (fld v (5 * d.rank) 4) else none

/-- The device that holds every symbol, or 0xF (R313 Table 6). -/
def devOf (spd : Nat) (l : List Nat) : Nat :=
  match l with
  | [] => 0xF
  | x :: t => if t.all (fun y => y / spd == x / spd) then x / spd else 0xF

/-- Whether the line code corrects the symbols (R294 Table 7). -/
def correctable (x8 : Bool) (spd : Nat) (mark : Option Nat) (l : List Nat) : Bool :=
  match mark with
  | none => l.length ≤ 8
  | some d => (l.filter (fun y => y / spd != d)).length ≤ (if x8 then 0 else 4)

/-- A corrected error confined to one device, of a line that stands at `loc`, counts toward the device's mark (R296); the record of a mark
tells of the read that made it (R313). -/
def countDevice (s : State) (n line loc dev pa symbols : Nat) (scrub : Bool) : State :=
  match s.map with
  | none => s
  | some m =>
    if dev = 0xF then s else
    let d := dramAt m loc
    let key := dev + 16 * d.rank + 128 * d.sub
    let mc := s.mc n
    let k := lookD 0 mc.devCount key + 1
    let s := s.setMc n { mc with devCount := put mc.devCount key k }
    let u := s.reg .mcUethr n 0 0
    let th := fld u 24 16
    if th ≠ 0 ∧ th ≤ k ∧ (¬ m.x8 ∨ bitAt u 40) ∧ (markedDev s n loc).isNone then
      let v := s.reg .mcBaddev n d.sub 0
      let s := s.setReg .mcBaddev n d.sub 0 (setFld v (5 * d.rank) 5 (dev + 16))
      s.logErr .notice 5 n 0x22 pa (pageOwner s line) (dramDetail s loc dev symbols false scrub)
    else s

/-- An uncorrectable line event: its record, and the channel fails at UETHRESH (R299). -/
def countUe (s : State) (n : Nat) : State :=
  let mc := s.mc n
  let k := mc.ueCount + 1
  let s := s.setMc n { mc with ueCount := k }
  let th := s.regF .mcUethr n 0 0 0 16
  if th ≠ 0 ∧ th ≤ k ∧ s.regF .mcHealth n 0 0 1 1 = 0 then
    (s.setRegF .mcHealth n 0 0 1 1 1).logErr .deferred 5 n 0x23 0 4095 2
  else s

/-- The first byte in error of a line, of those the symbols hold: 0 to 63 are the data (R293, R311). -/
def symbolByte (line : Nat) (l : List Nat) : Nat :=
  64 * line + ((List.range 64).find? (fun i => l.contains i)).getD 0

/-- A bank of a channel. -/
def bankKey (d : DramAt) : Nat := d.sub + 2 * (d.rank + 8 * (d.bg + 8 * d.bank))

/-- Refresh, or refresh management, of a bank of a rank in every bank group of both subchannels: its rows close, and its activation counts
fall by the count the module reports (R283, R285; as DDR5 defines it; PRESUMED, log 97). -/
def Mc.refreshBank (mc : Mc) (rank bank : Nat) : Mc :=
  let mine (k : Nat) : Bool := k / 2 % 8 == rank && k / 128 == bank
  { mc with rows := mc.rows.filter (fun p => !mine p.1),
            acts := (mc.acts.map (fun p => if mine p.1 then (p.1, p.2 - mc.rfm) else p)).filter (fun p => p.2 != 0) }

/-- An access to a row: where the bank has another row open, or none, an activation, which is counted where the module requires refresh
management; at its threshold the bank is refreshed (R285; PRESUMED, log 97). -/
def openRow (s : State) (n line : Nat) : State :=
  match s.map with
  | none => s
  | some m =>
    let d := dramAt m (locOf s n line)
    let mc := s.mc n
    let key := bankKey d
    if look mc.rows key = some d.row then s
    else
      let k := lookD 0 mc.acts key + 1
      let opened (mc : Mc) : Mc := { mc with rows := put mc.rows key d.row }
      let s := pmBump s (mcStop n) 6 1 s.qos
      if mc.rfm = 0 then s.setMc n (opened mc)
      else if k < mc.rfm then s.setMc n (opened { mc with acts := put mc.acts key k })
      else pmBump (s.setMc n (opened ({ mc with acts := put mc.acts key k }.refreshBank d.rank d.bank))) (mcStop n) 7 1 0

/-- A read of the DRAM array with the line code (R293-R296): the ciphertext as its plaintext under the key it was written with,
or poison. `scrub` is a scrub read (R317). Devices and places are those of the line's spare where it is remapped (R316). -/
def dramRead (s : State) (n line : Nat) (scrub : Bool) : State × (W512 × Bool) :=
  let loc := locOf s n line
  let note := s.note loc
  let owner := pageOwner s line
  let s := openRow s n line
  let data := readStored s.mem loc
  if note.poison then (s, (data, true))
  else if note.syms.isEmpty then (s, (data, false))
  else
    match s.map with
    | none => (s, (data, false))
    | some m =>
      let spd := symsPerDev m
      let mark := markedDev s n loc
      if correctable m.x8 spd mark note.syms then
        let dev := devOf spd note.syms
        let pa := symbolByte line note.syms
        let s := if (s.mc n).wq.any (fun e => e.line == line) then s else s.setNote loc { note with syms := [] }
        let s := s.logErr .corrected 5 n 0x20 pa owner (dramDetail s loc dev (note.syms.length % 32) mark.isSome scrub)
        (countDevice s n line loc dev pa (note.syms.length % 32) scrub, (data, false))
      else
        let s' := s.useFree
        if ¬ (m.x8 ∧ mark.isSome) ∧ Config.errorReported s.free then
          let s' := s'.logErr .deferred 5 n 0x21 (symbolByte line note.syms) owner (dramDetail s loc (devOf spd note.syms) 0x1F mark.isSome scrub)
          (countUe s' n, (data, true))
        else (s', (Config.alteredLine s.free, false))

/-- A command to a rank succeeds: its replays in a row start again (R285). -/
def rankOk (s : State) (n line : Nat) : State :=
  match s.map with
  | none => s
  | some p => let mc := s.mc n; s.setMc n { mc with parity := del mc.parity (dramAt p (locOf s n line)).rank }

/-- A controller's copy is made: the line corrected where R294 allows, else in stored-poison form (R316). -/
def mcRemapCopy (s : State) (n k : Nat) : State :=
  let e := s.reg .mcRemap n k 0
  match s.map with
  | none => s
  | some m =>
    if ¬ bitAt e 0 ∨ bitAt e 55 then s
    else
      let line := fld e 1 36
      let spare := spareBase m + fld e 37 18
      let (s, (d, bad)) := dramRead s n line false
      let s := pmBump (pmBump s (mcStop n) 4 1 s.qos) (mcStop n) 5 1 s.qos
      let s := { s with mem := writeStored s.mem spare d }
      let s := s.setNote spare { LineNote.fresh with key := (s.note line).key, poison := bad }
      let s := s.setReg .mcRemap n k 0 (setBit (setBit e 55 true) 56 bad)
      s.logErr .notice 5 n 0x2B (64 * line) (pageOwner s line) (BitVec.ofNat 64 (k + 16 * b2n bad))

/-- An access to a line whose copy into a spare is under way waits for it (R316). -/
def awaitCopy (s : State) (n line : Nat) : State :=
  match (List.range 16).find? (fun k =>
      let e := s.reg .mcRemap n k 0
      bitAt e 0 && !bitAt e 55 && fld e 1 36 == line) with
  | some k => mcRemapCopy s n k
  | none => s

/-- The oldest queued write goes to DRAM (R280, R281). -/
def drainOne (s : State) (n : Nat) : State :=
  let mc := s.mc n
  match mc.wq with
  | [] => s
  | e :: rest =>
    let s := awaitCopy (s.setMc n { mc with wq := rest }) n e.line
    let loc := locOf s n e.line
    let s := openRow s n e.line
    let s := { s with mem := writeStored s.mem loc e.c.data }
    let s := s.setNote loc { LineNote.fresh with key := some e.key, poison := e.c.poison != 0 }
    pmBump (rankOk s n e.line) (mcStop n) 5 1 e.qos

/-- The write queue drains when it has grown to 48 lines, until 16 remain (R281). -/
def drainFull (s : State) (n : Nat) : State :=
  let l := (s.mc n).wq.length
  if l < 48 then s else (List.range (l - 16)).foldl (fun s _ => drainOne s n) s

/-- A controller's write of a line: refused while stopped (R275) or under an empty key (R291), else queued in place of an older
write to the line (R280). -/
def mcWriteLine (s : State) (n line keyOwner : Nat) (d : W512) (poison : BitVec 8) : State :=
  if ¬ bitAt (s.reg .mcCtl n 0 0) 0 then s.logErr .deferred 5 n 0x27 (64 * line) (pageOwner s line) 1
  else
    match keyOf s keyOwner with
    | none => s.logErr .deferred 5 n 0x26 (64 * line) (pageOwner s line) 1
    | some key =>
      let s := if (s.mc n).wq.length < 64 ∨ (s.mc n).wq.any (fun e => e.line == line) then s else drainOne s n
      let mc := s.mc n
      let e : QWrite := ⟨line, ⟨d, poison, 0, 0, 0⟩, key, s.qos⟩
      if mc.wq.any (fun e => e.line == line) then s.setMc n { mc with wq := mc.wq.map (fun x => if x.line = line then e else x) }
      else drainFull (s.setMc n { mc with wq := mc.wq ++ [e] }) n

/-- Poison of a whole line (R305). -/
def allPoison : BitVec 8 := 0xFF

/-- A controller's read of a line (R275, R280, R289-R291). -/
def mcReadLine (s : State) (n line keyOwner : Nat) : State × (W512 × BitVec 8) :=
  if ¬ bitAt (s.reg .mcCtl n 0 0) 0 then (s.logErr .deferred 5 n 0x27 (64 * line) (pageOwner s line) 0, (0, allPoison))
  else
    match keyOf s keyOwner with
    | none => (s.logErr .deferred 5 n 0x26 (64 * line) (pageOwner s line) 0, (0, allPoison))
    | some key =>
      match (s.mc n).wq.find? (fun e => e.line == line) with
      | some e => (pmBump s (mcStop n) 8 1 s.qos, (decrypt key (some e.key) line e.c.data, e.c.poison))
      | none =>
        let s := awaitCopy s n line
        let note := s.note (locOf s n line)
        let (s, (d, bad)) := dramRead s n line false
        (pmBump (rankOk s n line) (mcStop n) 4 1 s.qos, if bad then (0, allPoison) else (decrypt key note.key line d, 0))

/-- The first poisoned byte of an access of `len` bytes at `off` in a line (R311). -/
def firstPoison (line : Nat) (p : BitVec 8) (off len : Nat) : Nat := 64 * line + max off (8 * ctz (p &&& wordsOf (enables off len)))

/-! ## The vault -/

/-- Bytes of a 64-bit mask. -/
def maskBytes (m : BitVec 64) : List Nat := (List.range 64).filter (fun i => bitAt m i)

/-- The port checks every byte's code (R265, R303): single errors corrected and written back, double errors poisoned. A byte stored as poison
is not logged again (DESIGN CHOICE, log 120). -/
def vaultCheck (s : State) (line : Nat) : State :=
  let x := s.note line
  let owner := pageOwner s line
  let port := sliceOf line
  let s := (maskBytes x.v1).foldl
    (fun s b => s.logErr .corrected 3 port 0x10 (64 * line + b) owner (BitVec.ofNat 64 b)) s
  let s := if x.v2 = 0 then s
    else s.logErr .deferred 3 port 0x11 (64 * line + ctz x.v2) owner x.v2
  s.setNote line { x with v1 := 0, v2 := 0, vp := x.vp ||| x.v2 }

/-- The remap entry of a vault line whose copy into a spare is under way (R266). -/
def copying (s : State) (line : Nat) : Option Nat :=
  if ¬ isVault line then none
  else (List.range 8).find? (fun k =>
    let e := s.reg .vltRemap (sliceOf line) k 0
    bitAt e 0 && !bitAt e 28 && 0xE000000000000 / 64 + fld e 6 22 == line)

/-- A vault port's copy is made: bytes corrected where the code allows, the rest kept poisoned (R266). -/
def vltRemapCopy (s : State) (n k : Nat) : State :=
  let e := s.reg .vltRemap n k 0
  if ¬ bitAt e 0 ∨ bitAt e 28 then s
  else
    let line := 0xE000000000000 / 64 + fld e 6 22
    let s := vaultCheck s line
    let bad := (s.note line).vp != 0
    let s := s.setReg .vltRemap n k 0 (setBit (setBit e 28 true) 29 bad)
    s.logErr .notice 3 n 0x12 (64 * line) (pageOwner s line) (BitVec.ofNat 64 (k + 8 * b2n bad))

/-- A port's read of a line (R264, R265, R305). -/
def vaultRead (s : State) (line : Nat) : State × (W512 × BitVec 8) :=
  let s := vaultCheck s line
  (s, (readStored s.mem line, wordsOf (s.note line).vp.toNat))

/-- A port's write of the bytes `en` (R265): exactly those bytes, ending their errors; words in `poison` are stored poisoned. -/
def vaultWrite (s : State) (line : Nat) (d : W512) (en : Nat) (poison : BitVec 8) : State :=
  let m := BitVec.ofNat 64 en
  let x := s.note line
  let pm : BitVec 64 := BitVec.ofNat 64 (leNat ((List.range 8).map (fun i => if bitAt poison i then 0xFF#8 else 0#8)))
  let s := { s with mem := writeStored s.mem line (mergeBytes (readStored s.mem line) d en) }
  s.setNote line { x with v1 := x.v1 &&& ~~~m, v2 := x.v2 &&& ~~~m, vp := (x.vp &&& ~~~m) ||| (pm &&& m) }

/-! ## Root ports and their AER (R430, R436, R439) -/

def State.rc (s : State) (k : Nat) : Rc := lookD Rc.reset s.rcs k
def State.setRc (s : State) (k : Nat) (r : Rc) : State := { s with rcs := put s.rcs k r }
def State.port (s : State) (k p : Nat) : RootPort := lookD RootPort.reset (s.rc k).ports p
def State.setPort (s : State) (k p : Nat) (x : RootPort) : State :=
  s.setRc k { s.rc k with ports := put (s.rc k).ports p x }

/-- AER uncorrectable status bits of the PCI Express family (PRESUMED, log 17): poisoned TLP, completion timeout, malformed TLP, ECRC
error, unsupported request, and a failed IDE check. -/
def aerPoison : Nat := 12
def aerTimeout : Nat := 14
def aerMalformed : Nat := 18
def aerEcrc : Nat := 19
def aerUr : Nat := 20
def aerIde : Nat := 28

/-- An AER error of a root port is recorded; its source has an event as the status becomes non-zero (R451). -/
def noteAer (s : State) (k p bit : Nat) : State :=
  let was := (s.port k p).aer
  let s := s.setPort k p { s.port k p with aer := Sys2Proof.Machine.setBit was bit true }
  if was = 0 then s.raiseSource (96 + 4 * k + p) else s

/-! ## CXL memory -/

/-- The port of RC[k] that serves an address, if it serves it (R438): an enabled range, a running root complex, CXLUP. -/
def hdmPort (s : State) (k pa : Nat) : Option Nat :=
  if ¬ bitAt (s.reg .rcCtl k 0 0) 0 then none else
  match (List.range 8).find? (fun r =>
      let lo := s.reg .rcHdmlo k r 0
      let base := fld lo 28 24 * 2 ^ 28
      bitAt lo 0 && base ≤ pa && pa < base + s.regF .rcHdmhi k r 0 0 17 * 2 ^ 28) with
  | none => none
  | some r =>
    let p := s.regF .rcHdmlo k r 0 1 2
    if bitAt (s.reg .rcPortstat k p 0) 11 then some p else none

/-- A CXL.mem read that its device answers, or that times out: then the line is poisoned, and the port records it (R438, R439). -/
def cxlReadAt (timeout : Bool) (s : State) (k line keyOwner : Nat) : State × (W512 × BitVec 8) :=
  match hdmPort s k (64 * line) with
  | none => (s, (0, allPoison))
  | some p =>
    match keyOf s keyOwner with
    | none => (s.logErr .deferred 6 k 0x26 (64 * line) (pageOwner s line) 0, (0, allPoison))
    | some key =>
      if timeout then (noteAer s k p aerTimeout, (0, allPoison))
      else
        let x := s.note line
        (s, if x.poison then (0, allPoison) else (decrypt key x.key line (readStored s.mem line), 0))

/-- A CXL.mem write; one that times out is lost (R438, R439). -/
def cxlWriteAt (timeout : Bool) (s : State) (k line keyOwner : Nat) (d : W512) (poison : BitVec 8) : State :=
  match hdmPort s k (64 * line) with
  | none => s
  | some p =>
    match keyOf s keyOwner with
    | none => s.logErr .deferred 6 k 0x26 (64 * line) (pageOwner s line) 1
    | some key =>
      if timeout then noteAer s k p aerTimeout
      else ({ s with mem := writeStored s.mem line d }).setNote line { LineNote.fresh with key := some key, poison := poison != 0 }

/-- A read or a write of the part's own: whether the device answers it in time is free (R439; DESIGN CHOICE, log 125). -/
def cxlRead (s : State) (k line keyOwner : Nat) : State × (W512 × BitVec 8) :=
  cxlReadAt (Config.cxlTimeout s.free) s.useFree k line keyOwner

def cxlWrite (s : State) (k line keyOwner : Nat) (d : W512) (poison : BitVec 8) : State :=
  cxlWriteAt (Config.cxlTimeout s.free) s.useFree k line keyOwner d poison

/-! ## Any memory line -/

/-- Read a line from memory under a key owner. An address nothing backs reads poisoned. -/
def memRead (s : State) (line keyOwner : Nat) : State × (W512 × BitVec 8) :=
  match regionOf (64 * line) with
  | .vault => vaultRead s line
  | .dram => if inWindow s 0 (64 * line) then mcReadLine s (chanOf s line) line keyOwner else (s, (0, allPoison))
  | .cxl => match cxlRc s (64 * line) with
    | some k => cxlRead s k line keyOwner
    | none => (s, (0, allPoison))
  | _ => (s, (0, allPoison))

/-- Write a whole line to memory under a key owner. -/
def memWrite (s : State) (line keyOwner : Nat) (d : W512) (poison : BitVec 8) : State :=
  match regionOf (64 * line) with
  | .vault => vaultWrite s line d (2 ^ 64 - 1) poison
  | .dram => if inWindow s 0 (64 * line) then mcWriteLine s (chanOf s line) line keyOwner d poison else s
  | .cxl => match cxlRc s (64 * line) with
    | some k => cxlWrite s k line keyOwner d poison
    | none => s
  | _ => s

end Sys2Proof.Machine
end

