-- ==== Sys2Proof/Machine/Own.lean ====
section
/-! DEFINITION. Page ownership checks with the ownership caches (R322-R327), and how a line is read coherently without a check. -/

namespace Sys2Proof.Machine

/-! ## Coherent data without a check -/

/-- The L2 copy of a core. -/
def l2Of (s : State) (c line : Nat) : Option L2Line := look (s.core c).l2 line

/-- The LLC way that holds a line, by its key. -/
def llcKey (line way : Nat) : Nat := sliceOf line * 32768 + setOf line * 16 + way

def llcFind (s : State) (line : Nat) : Option (Nat × LlcWay) :=
  (List.range 16).findSome? (fun w =>
    match look s.llc (llcKey line w) with
    | some x => if x.line = line then some (w, x) else none
    | none => none)

/-- A holder after SnpShared: M and O keep O, E keeps S (R230). -/
def afterShared : Moesi → Moesi
  | .m | .o => .o
  | .e | .s => .s

/-- A line as a DMA read finds it (R248): the M, O or E holder's data, which keeps O or S; else the LLC's, a victim's, or
memory's under `ko`. Nothing is allocated. -/
def cohRead (s : State) (line ko : Nat) : State × (W512 × BitVec 8) :=
  let fromCore : Option (Nat × L2Line) :=
    match look s.dirs line with
    | some d => d.holder.bind (fun h => (l2Of s h line).map (fun x => (h, x)))
    | none => none
  match fromCore with
  | some (h, x) =>
    let s := s.onCore h (fun k => { k with l2 := put k.l2 line { x with st := afterShared x.st } })
    let d := (look s.dirs line).getD ⟨0, none, 0⟩
    let s := { s with dirs := put s.dirs line { d with holder := if x.st = .e then none else d.holder } }
    (s, (x.c.data, x.c.poison))
  | none =>
    match s.victims.find? (fun v => v.line == line) with
    | some v => (s, (v.c.data, v.c.poison))
    | none =>
      match s.victims.findSome? (fun v => v.incoming.filter (fun w => w.line == line)) with
      | some w => (s, (w.c.data, w.c.poison))
      | none =>
      match llcFind s line with
      | some (_, w) => (s, (w.c.data, w.c.poison))
      | none => memRead s line ko

/-! ## Ownership caches -/

/-- Requests to a line of DRAM or CXL memory wait at their home, after a package wake (R422). -/
def memHeld (s : State) (line : Nat) : Bool :=
  s.power.memWait && (match regionOf (64 * line) with
    | .dram | .cxl => true
    | _ => false)

/-- A table line in an agent's cache, filled on a miss; at most 1,024 lines an agent, the oldest leaving first (R327; DESIGN CHOICE, log 16). -/
def ownFill (s : State) (agent tline : Nat) : State × OwnLine :=
  match s.ownc.find? (fun x => x.agent == agent && x.line == tline) with
  | some x => (s, x)
  | none =>
    let (s, (d, p)) := cohRead (if memHeld s tline then { s with stalled := true } else s) tline 1
    let x : OwnLine := ⟨agent, tline, d, p⟩
    let mine := s.ownc.filter (fun y => y.agent == agent)
    let keep := if mine.length < 1024 then s.ownc else
      s.ownc.filter (fun y => !(y.agent == agent && some y.line == (mine.getLast?.map (·.line))))
    ({ s with ownc := x :: keep }, x)

/-- An entry as the agent of a line reads it: none where no table covers the page, an error where the word is poisoned, recorded with the
entry's own address and the owner of its page (R311). -/
def readEntry (s : State) (line : Nat) : State × Option (Except Unit W16) :=
  match entryAddr s (64 * line) with
  | none => (s, none)
  | some a =>
    let (agent, _, src, inst) := ownAgent s line
    let (s, x) := ownFill s agent (a / 64)
    if bitAt x.poison (a % 64 / 8) then
      (s.logErr .consumed src inst 0x37 a (pageOwner s (a / 64)) 0, some (.error ()))
    else (s, some (.ok (x.data.extractLsb' (8 * (a % 64)) 16)))

/-- An entry that stands for a transaction's own identity, while the table is not in force (R325). -/
def selfEntry (secure : Bool) (o : Nat) : W16 :=
  if 2 ≤ o ∧ o ≤ 4094 then BitVec.ofNat 16 (0x3000 + o) else if secure ∨ o = 1 then 0x2001 else 0x1000

/-- The check at a target with its ownership cache (R322-R325): key owner and entry, or the reason. Where several reasons of R323 hold,
the one reported is 5, then 4, 6 and 7 (DESIGN CHOICE, log 99). -/
def targetCheck (s : State) (line : Nat) (secure : Bool) (o : Nat) (write : Bool) : State × Except Nat (Nat × W16) :=
  if ¬ tableLocked s then (s, .ok (o, selfEntry secure o))
  else
    match readEntry s line with
    | (s, none) => (s, .error 5)
    | (s, some (.error _)) => (s, .error 4)
    | (s, some (.ok e)) =>
      if write ∧ inTable s (64 * line) then (s, .error 6)
      else
        match checkEntry e secure o with
        | .error r => (s, .error r)
        | .ok ko => (s, .ok (ko, e))

/-- The key owner of a write no agent carries (R290): from the entry of the page; none where the entry has none. -/
def pageKeyOwner (s : State) (line : Nat) (tag : W16) : State × Option Nat :=
  if ¬ tableLocked s then (s, keyOwner tag)
  else
    match readEntry s line with
    | (s, some (.ok e)) => (s, keyOwner e)
    | (s, _) => (s, none)

/-- A denied transaction's address and owner (R331). -/
def denyLast (s : State) (pa o : Nat) : State :=
  s.setReg .ownDenylast 0 0 0 (BitVec.ofNat 64 (pa % 2 ^ 52 + o * 2 ^ 52))

/-- A retired write that fails its check is discarded and counted (R331). -/
def lateWrite (s : State) (pa o : Nat) : State := denyLast (s.bump .ownDenycnt 0 0 0 32 16 1) pa o

/-- A write that no agent carries reaches memory under the page's key; with no key owner it is discarded, and counted as a retired write of
the owner whose entry the copy carries (R331; DEDUCED, log 100). -/
def writeUnowned (s : State) (line : Nat) (tag : W16) (d : W512) (p : BitVec 8) : State :=
  match pageKeyOwner s line tag with
  | (s, some ko) => memWrite s line ko d p
  | (s, none) => lateWrite s (64 * line) (entOwner tag)

end Sys2Proof.Machine
end

