-- ==== Sys2Proof/Machine/RegIo.lean ====
section
/-! DEFINITION. Accesses to the on-chip register region (R6-R9, R255, R259, R487, R492): access codes, levels, narrow accesses and
denials, for a register whose fields do no more than hold values. -/

namespace Sys2Proof.Machine

/-- The level an attribute counts as, and its world (R255): PRIV 6 is PL3 in the secure world; PRIV 7 is the highest level of the
world whose debug is effective (DEDUCED, log 18). -/
def attrLevel (x : Attr) : Nat :=
  if x.priv.toNat = 6 then 3 else if x.priv.toNat ≤ 3 then x.priv.toNat
  else if x.priv.toNat = 7 then (if x.secure then 3 else 2) else 0
def attrSec (x : Attr) : Bool := x.secure || x.priv == 6

/-- The stop that serves a register block (R487). -/
def servingStop (d : RegDef) (n : Nat) : Nat :=
  if d.base = 0xF000000000000 then mcStop n
  else if d.base = 0xF000001000000 ∨ d.base = 0xF000003000000 then (if n = 96 then 128 else n)
  else if d.base = 0xF000002000000 then (if n = 132 then 128 else n)
  else if d.base = 0xF00000C000000 then n
  else if d.base = 0xF000004000000 then nthD 0 [100, 102, 112, 114] n
  else if d.base = 0xF000008000000 then nthD 0 [120, 121, 124, 125, 126, 127, 130, 131] n
  else if d.base = 0xF000009000000 then 128
  else if d.base = 0xF00000A000000 then 123
  else 122

/-- Whether a field may be read or written by an access of a level and world. -/
def Field.open_ (f : Field) (level need : Nat) (sec : Bool) : Bool := need ≤ level && (!f.sec || sec)

/-- The stop counts a denied access (R255). -/
def deny (s : State) (d : RegDef) (n : Nat) : State := s.bump .meshDeny (servingStop d n) 0 0 0 16 1

/-- Read-side value of a register: open fields as stored, write-only fields zero (R6, R8). -/
def openBits (d : RegDef) (v : W64) (x : Attr) : W64 :=
  d.fields.foldl (fun acc f =>
    if f.open_ (attrLevel x) d.level (attrSec x) && decide (f.acc ≠ .wo) then setFld acc f.lo f.width (fld v f.lo f.width) else acc) 0

/-- RC fields that a read of `len` bytes from byte `off` touches are cleared (R6, R492). -/
def clearRc (d : RegDef) (v : W64) (off len : Nat) (x : Attr) : W64 :=
  d.fields.foldl (fun acc f =>
    if f.acc = .rc ∧ f.open_ (attrLevel x) d.level (attrSec x) ∧ f.lo < 8 * (off + len) ∧ 8 * off < f.lo + f.width then
      setFld acc f.lo f.width 0 else acc) v

/-- The bytes of a value from byte `off`. -/
def sliceBytes (v : W64) (off len : Nat) : W64 := (v >>> (8 * off)) &&& BitVec.ofNat 64 (2 ^ (8 * len) - 1)

/-- The lowest level of a field: the S fields of MESH[t].QOS and of SLEEPEN only PL3 reaches (R255, R423); in every other register it is the
register's. -/
def Field.floor (d : RegDef) (level : Nat) (f : Field) : Nat := if (d.id = .meshQos ∨ d.id = .lvSleepen) ∧ f.sec then 3 else level

/-- An access reaches a field whose lowest level is above its own (R255). -/
def below (a : RegAt) (level off len : Nat) (x : Attr) : Bool :=
  decide (attrLevel x < level) || a.d.fields.any (fun f =>
    decide (attrLevel x < f.floor a.d level) && f.lo < 8 * (off + len) && 8 * off < f.lo + f.width)

/-- A register with the side effects of reading it no more than RC. -/
def plainRead (s : State) (a : RegAt) (off len : Nat) (x : Attr) : State × W64 :=
  let v := s.reg a.d.id a.n a.k a.j
  let s := if below a a.d.level off len x then deny s a.d a.n else s
  let v' := clearRc a.d v off len x
  let s := if v' = v then s else s.setReg a.d.id a.n a.k a.j v'
  (s, sliceBytes (openBits a.d v x) off len)

/-- The word a narrow write stands for, field by field: RW fields keep the bytes not enabled, W1C and W1S see zero there (R492). -/
def fieldInput (f : Field) (old v : W64) (off len : Nat) : W64 :=
  let en := enables off len
  match f.acc with
  | .rw => mergeBytes old (v <<< (8 * off)) en
  | _ => mergeBytes 0 (v <<< (8 * off)) en

/-- Whether a write covers every byte of a field (R492, WO). -/
def Field.covered (f : Field) (off len : Nat) : Bool :=
  off * 8 ≤ f.lo / 8 * 8 && (f.lo + f.width + 7) / 8 * 8 ≤ 8 * (off + len)

/-- The value of a register after a write of the fields that `takes` admits. -/
def fieldsWritten (d : RegDef) (old v : W64) (off len : Nat) (x : Attr) (takes : Field → Bool) : W64 :=
  d.fields.foldl (fun acc f =>
    if f.open_ (attrLevel x) d.wlevel (attrSec x) && takes f then f.write acc (fieldInput f old v off len) else acc) old

/-- A write below the level of a register is counted as denied (R255). -/
def levelWrite (s : State) (a : RegAt) (x : Attr) : State := if attrLevel x < a.d.wlevel then deny s a.d a.n else s

/-- The value a write by the access codes alone would leave. -/
def newValue (s : State) (a : RegAt) (off len : Nat) (v : W64) (x : Attr) : W64 :=
  fieldsWritten a.d (s.reg a.d.id a.n a.k a.j) v off len x (fun _ => true)

/-- The written word, zero in the bytes not enabled. -/
def inputWord (off len : Nat) (v : W64) : W64 := mergeBytes 0 (v <<< (8 * off)) (enables off len)

/-- A write of 1 reaches the field at bit `lo`. -/
def asserted (a : RegAt) (off len : Nat) (v : W64) (x : Attr) (lo : Nat) : Bool :=
  a.d.fields.any (fun f => f.lo == lo && f.open_ (attrLevel x) a.d.wlevel (attrSec x) && bitAt (inputWord off len v) lo)

/-- A write enables at least one byte of the field at bit `lo`, which the access may write. -/
def touches (a : RegAt) (off len : Nat) (x : Attr) (lo : Nat) : Bool :=
  a.d.fields.any (fun f => f.lo == lo && f.open_ (attrLevel x) a.d.wlevel (attrSec x)
    && f.lo < 8 * (off + len) && 8 * off < f.lo + f.width)

/-- A WO field at bit `lo` acts: the access may write it and covers all its bytes (R492). -/
def acts (a : RegAt) (off len : Nat) (x : Attr) (lo : Nat) : Bool :=
  a.d.fields.any (fun f => f.lo == lo && f.open_ (attrLevel x) a.d.wlevel (attrSec x) && f.covered off len)

/-- A write that does no more than set fields (R6). -/
def plainWrite (s : State) (a : RegAt) (off len : Nat) (v : W64) (x : Attr) : State :=
  (if below a a.d.wlevel off len x then deny s a.d a.n else s).setReg a.d.id a.n a.k a.j (newValue s a off len v x)

end Sys2Proof.Machine
end

