-- ==== Sys2Proof/Machine/IoPorts.lean ====
section
/-! DEFINITION. Root ports: which exist, whether they are up, their configuration space, the routing of outbound requests, and the
aborts of R436 and R437. -/

namespace Sys2Proof.Machine

/-- The ports a bifurcation creates (R428). -/
def portsOf : Nat → List Nat
  | 0 => [0]
  | 1 => [0, 2]
  | 2 => [0, 2, 3]
  | 3 => [0, 1, 2]
  | 4 => [0, 1, 2, 3]
  | _ => []

/-- A root port exists. -/
def portExists (s : State) (k p : Nat) : Bool := (portsOf (s.regF .rcCfg k 0 0 0 3)).contains p

def rcRunning (s : State) (k : Nat) : Bool := bitAt (s.reg .rcCtl k 0 0) 0

def linkState (s : State) (k p : Nat) : Nat := s.regF .rcPortstat k p 0 0 3

/-- The link of a port is up and has credits: running root complex, link in L0 or L1 (R429). -/
def linkUp (s : State) (k p : Nat) : Bool :=
  rcRunning s k && portExists s k p && (linkState s k p == 2 || linkState s k p == 3)

/-- The port takes outbound requests: its link is up and it is not contained (R435). -/
def portUp (s : State) (k p : Nat) : Bool := linkUp s k p && !bitAt (s.reg .rcPortstat k p 0) 15

/-- The lanes of a port (R428). -/
def portLanes (bifur p : Nat) : Nat :=
  match bifur, p with
  | 0, 0 => 16
  | 1, 0 | 1, 2 | 2, 0 | 3, 2 => 8
  | 2, 2 | 2, 3 | 3, 0 | 3, 1 | 4, _ => 4
  | _, _ => 0

/-- The level of PERST_N[4k + p]: low while the port is held in reset, and always where the bifurcation creates no port (R428). -/
def perstPin (s : State) (k p : Nat) : Bool := portExists s k p && !(s.port k p).low

/-- A port's link is training: out of reset and enabled, and not up (PORTSTAT.LINK 1; DEDUCED, log 80). -/
def portTrains (s : State) (k p : Nat) : Bool :=
  perstPin s k p && bitAt (s.reg .rcPortctl k p 0) 1 && linkState s k p == 0 && s.rootClock && !bitAt (s.reg .lvBlkpwr 0 0 0) (8 + k)

/-! ## Configuration space of a root port (R431; its layout is the PCI Express family's, PRESUMED, log 17) -/

def pcieCap : Nat := 4 * (Config.pcieCapAt % 40) + 0x40
def pmCap : Nat := if pcieCap < 0x80 then pcieCap + 4 * (Config.pmCapAt % 8) + 0x3C else 4 * (Config.pmCapAt % 14) + 0x40
def aerCap : Nat := 4 * (Config.aerCapAt % 900) + 0x100

/-- Slot Control and Status, Root Control and Root Status in the PCIe capability, and the AER uncorrectable error status. -/
def slotReg : Nat := pcieCap + 0x18
def rootControl : Nat := pcieCap + 0x1C
def rootStatus : Nat := pcieCap + 0x20
def aerStatus : Nat := aerCap + 4

/-- The bits of a dword that a write sets: in the type 1 header Command, the cache line size, bus numbers, the memory ranges and Bridge
Control; in the PCIe capability the control registers; PMCSR; in AER masks, severity, control and Root Error Command. -/
def cfgWritable (off : Nat) : W32 :=
  if off = 0x04 then 0x0000FFFF
  else if off = 0x0C then 0x000000FF
  else if off = 0x18 then 0x00FFFFFF
  else if off = 0x20 ∨ off = 0x24 then 0xFFF0FFF0
  else if off = 0x28 ∨ off = 0x2C then 0xFFFFFFFF
  else if off = 0x3C then 0xFFFF00FF
  else if [8, 0x10, 0x18, 0x1C, 0x28, 0x30, 0x38].any (fun d => pcieCap + d == off) then 0x0000FFFF
  else if off = pmCap + 4 then 0x00000103
  else if [8, 0xC, 0x14, 0x18, 0x2C].any (fun d => aerCap + d == off) then 0xFFFFFFFF
  else 0

/-- The bits of a dword that the family fixes, and their values: a bridge's class code, header type 1, the capabilities bit of Status and
the list of capabilities, memory ranges of 64 bits, no I/O range (R430), the identities of the capabilities, and a root port with a
slot. -/
def cfgFixed (off : Nat) : W32 × W32 :=
  if off = 0x04 then (0x00100000, 0x00100000)
  else if off = 0x08 then (0xFFFFFF00, 0x06040000)
  else if off = 0x0C then (0x00FF0000, 0x00010000)
  else if off = 0x18 then (0xFF000000, 0)
  else if off = 0x1C then (0x0000FFFF, 0)
  else if off = 0x20 then (0x000F000F, 0)
  else if off = 0x24 then (0x000F000F, 0x00010001)
  else if off = 0x28 ∨ off = 0x2C then (0, 0)
  else if off = 0x30 then (0xFFFFFFFF, 0)
  else if off = 0x34 then (0x000000FF, BitVec.ofNat 32 pcieCap)
  else if off = pcieCap then (0x01F0FFFF, BitVec.ofNat 32 (0x10 + pmCap * 2 ^ 8 + 0x01400000))
  else if off = pmCap then (0x0000FFFF, 0x00000001)
  else if off = aerCap then (0x0000FFFF, 0x00000001)
  else (0, 0)

/-- A dword of a root port's configuration space. A writable bit nothing has written is 0 in bus numbers and memory ranges, else free, as
every bit neither writable nor fixed is. The latch and presence of Slot Status follow the expander's inputs (R434). -/
def cfgDword (s : State) (k p off : Nat) : W32 :=
  let x := s.port k p
  let free := Config.rootPortReg k p off
  let kept := (look x.raw off).getD (if off = 0x18 ∨ off = 0x20 ∨ off = 0x24 ∨ off = 0x28 ∨ off = 0x2C then 0 else free)
  let w := cfgWritable off
  let (m, v) := cfgFixed off
  let open_ := ~~~(w ||| m)
  let plain := (kept &&& w) ||| (v &&& m &&& ~~~w) ||| (if open_ = 0 then 0 else free &&& open_)
  if off = aerStatus then x.aer
  else if off = slotReg then
    let now : W16 := (if bitAt x.inputs 3 then 0 else 0x20) ||| (if bitAt x.inputs 0 then 0 else 0x40)
    ((x.slot ||| now).setWidth 32 <<< 16) ||| (plain &&& 0xFFFF)
  else if off = rootStatus then (plain &&& ~~~(1#32 <<< 16)) ||| (if x.pme then 1#32 <<< 16 else 0)
  else plain

/-- A dword of a root port's configuration space written: writable bits are kept, status bits clear by writing one, and nothing else
changes. -/
def cfgWrite (s : State) (k p off : Nat) (v : W32) : State :=
  let x := s.port k p
  let x := if cfgWritable off = 0 then x else { x with raw := put x.raw off (v &&& cfgWritable off) }
  s.setPort k p
    (if off = aerStatus then { x with aer := x.aer &&& ~~~v }
    else if off = slotReg then { x with slot := x.slot &&& ~~~((v >>> 16).setWidth 16) }
    else if off = rootStatus then { x with pme := x.pme && !bitAt v 16 }
    else x)

/-! ## Routing -/

/-- The port whose buses hold a bus number (R431). -/
def busPort (s : State) (k bus : Nat) : Option Nat :=
  (List.range 4).find? (fun p =>
    let v := cfgDword s k p 0x18
    portExists s k p && decide (bus ≠ 0) && fld v 8 8 ≤ bus && bus ≤ fld v 16 8 && decide (fld v 8 8 ≠ 0))

/-- The port whose memory ranges hold an offset into the window of RC[k] (R431). -/
def memPort (s : State) (k off : Nat) : Option Nat :=
  (List.range 4).find? (fun p =>
    let m := cfgDword s k p 0x20
    let q := cfgDword s k p 0x24
    let qb := fld q 4 12 * 2 ^ 20 + (cfgDword s k p 0x28).toNat * 2 ^ 32
    let ql := fld q 20 12 * 2 ^ 20 + 0xFFFFF + (cfgDword s k p 0x2C).toNat * 2 ^ 32
    let lo := fld m 4 12 * 2 ^ 20
    let hi := fld m 20 12 * 2 ^ 20 + 0xFFFFF
    portExists s k p && ((decide (look (s.port k p).raw 0x20 ≠ none) && lo ≤ off && off ≤ hi)
      || (decide (look (s.port k p).raw 0x24 ≠ none) && qb ≤ off && off ≤ ql)))

/-- Where an outbound request goes: answered in the root complex with a value, aborted, or sent to a port. -/
inductive OutRes
  | value (v : W64)
  | abort (kind k p : Nat)
  | sent (k p : Nat)
deriving DecidableEq, Repr

/-- All ones of a width. -/
def ones (len : Nat) : W64 := BitVec.ofNat 64 (2 ^ (8 * len) - 1)

/-- The dwords of a root port that an access of `len` bytes at `r` touches, with the access's bytes in each: its first byte there, and
how many. -/
def cfgParts (r len : Nat) : List (Nat × Nat × Nat) :=
  (List.range ((r % 4 + len + 3) / 4)).map (fun i =>
    let lo := max r (r / 4 * 4 + 4 * i)
    let hi := min (r + len) (r / 4 * 4 + 4 * i + 4)
    (r / 4 * 4 + 4 * i, lo, hi - lo))

/-- A configuration access of RC[k], at its exact size (R75, R76, R431, R432, R436): root ports answer at once. -/
def cfgAccess (s : State) (k off len : Nat) (write : Bool) (v : W512) : State × OutRes :=
  let bus := off / 2 ^ 20 % 256
  let dev := off / 2 ^ 15 % 32
  let fn := off / 2 ^ 12 % 8
  let r := off % 4096
  let none_ : OutRes := if write then .abort 4 k 0 else .value (ones len)
  if ¬ rcRunning s k then (s, none_)
  else if bus = 0 then
    if dev < 4 ∧ fn = 0 ∧ portExists s k dev then
      if write then
        ((cfgParts r len).foldl (fun s (dw, lo, n) =>
          let d : W32 := ((v >>> (8 * (lo - r))).setWidth 32) <<< (8 * (lo % 4))
          cfgWrite s k dev dw (mergeBytes (cfgDword s k dev dw) d (enables (lo % 4) n))) s, .value 0)
      else
        (s, .value ((cfgParts r len).foldl (fun acc (dw, lo, n) =>
          acc ||| (sliceBytes ((cfgDword s k dev dw).setWidth 64) (lo % 4) n <<< (8 * (lo - r)))) 0))
    else (s, none_)
  else
    match busPort s k bus with
    | none => (s, none_)
    | some p => if portUp s k p then (s, .sent k p) else (s, if write then .abort 4 k p else .value (ones len))

/-- A memory request to the window of RC[k] (R436). A write is posted; where its port takes none, it is discarded, and the port records an
unsupported request (the bit is PRESUMED, log 17). -/
def memAccess (s : State) (k off : Nat) (write : Bool) : State × OutRes :=
  match memPort s k off with
  | none => (s, if write then .value 0 else .abort 4 k 0)
  | some p =>
    if portUp s k p then (s, if write then .value 0 else .sent k p)
    else if write then (noteAer s k p aerUr, .value 0)
    else (s, .abort 4 k p)

/-- IO_ABORT (R437). -/
def ioAbort (va : W64) (write : Bool) (kind k p : Nat) : Exc :=
  { Exc.plain 0x13 1 va (if kind = 5 then kind + p * 2 ^ 10 else kind + k * 2 ^ 4 + p * 2 ^ 8) with write := write }

/-- The IDE stream that covers what a condition names at a port: the lowest in use (R448). -/
def ideStream (s : State) (k p : Nat) (covers : Nat → W64 → Bool) : Option Nat :=
  (List.range 8).find? (fun i =>
    let v := s.reg .rcIdectl k i 0
    bitAt v 0 && fld v 1 2 == p && covers i v)

/-- The stream of an outbound memory request at an offset of its window; configuration requests have none (R448). -/
def outStream (s : State) (k p pa : Nat) (cfg : Bool) : Option Nat :=
  if cfg then none
  else ideStream s k p (fun i _ =>
    let off := pa % 2 ^ 45 / 2 ^ 20
    fld (s.reg .rcIdeaddrbase k i 0) 20 44 ≤ off && off ≤ fld (s.reg .rcIdeaddrlim k i 0) 20 44)

/-- A non-posted request of a requester leaves RC[k] for a port: its tag. -/
def sendOut (s : State) (k p who pa : Nat) (cfg : Bool) : State × Nat :=
  let r := s.rc k
  (s.setRc k { r with out := r.out ++ [⟨r.next, who, p, outStream s k p pa cfg⟩], next := r.next + 1 }, r.next)

end Sys2Proof.Machine
end

