-- ==== Sys2Proof/Machine/Coherence.lean ====
section
/-! DEFINITION. Caches and homes (chapter 07): requests, snoops, grants, fills, evictions, LLC allocation and victims,
directories, accesses performed at the home, and the effect of upset bits (R303). A home transaction can be taken step by step
(the rows READ_SHARED to LINE_FILL) or run to its end by the access that needs it. -/

namespace Sys2Proof.Machine

/-! ## Classes and regulators -/

/-- The QoS class of a core's transactions of a world (R254, R255). -/
def qosIn (s : State) (c : Nat) (secure : Bool) : Nat :=
  fld (s.reg .meshQos (c / 2) 0 0) (16 * (c % 2) + (if secure then 8 else 0)) 6

/-- The QoS class of what a core issues now. -/
def qosOf (s : State) (c : Nat) : Nat := qosIn s c (s.core c).secure

/-- The attributes of what a core issues now (R254). -/
def identOf (s : State) (c : Nat) : Ident := ⟨(s.core c).secure, (s.core c).owner.toNat, qosOf s c, (s.core c).pl⟩

/-- The same for the world and owner of an access. -/
def identIn (s : State) (c : Nat) (secure : Bool) (o : Nat) : Ident := ⟨secure, o, qosIn s c secure, (s.core c).pl⟩

/-- What a service block or a monitor does for itself carries a class that R254 leaves open (DESIGN CHOICE, log 90). -/
def State.asService (s : State) : State := { s with qos := Config.serviceQos.toNat }

/-- A line whose transactions regulators charge: of DRAM or a CXL window (R286). -/
def chargedLine (line : Nat) : Bool :=
  match regionOf (64 * line) with
  | .dram | .cxl => true
  | _ => false

/-- Requests the regulator charges whatever the line's state: not Upgrade nor Claim (R286). -/
def charged (line : Nat) : Req → Bool
  | .readShared | .readUnique | .writeFull _ _ => chargedLine line
  | _ => false

/-- The token count after one token is taken, waiting for it where there is none (R287). -/
def takeToken (s : State) (stop : Nat) : State :=
  let cfg := s.reg .meshMemreg stop 0 0
  if regulatedStop stop ∧ bitAt cfg 0 then
    let tok := s.regF .meshMemtok stop 0 0 0 20
    let rate := max 1 (fld cfg 4 9)
    let wait := if tok < 256 then (256 - tok + rate - 1) / rate else 0
    let tok := min (tok + wait * rate) (max 256 (fld cfg 16 12 * 256))
    s.setRegF .meshMemtok stop 0 0 0 20 (tok - 256)
  else s

/-- Whether a charged request must wait at its stop (R287, R288). -/
def mustWait (s : State) (stop : Nat) : Bool :=
  regulatedStop stop && bitAt (s.reg .meshMemreg stop 0 0) 0 && decide (s.regF .meshMemtok stop 0 0 0 20 < 256)

/-- It waits behind those held before it too. -/
def stopHolds (s : State) (stop : Nat) : Bool := mustWait s stop || s.heldReqs.any (fun q => q.stop == stop)

/-! ## Upset bits in caches (R303) -/

/-- DETAIL of a cache record: level and way, set (R313). -/
def cacheDetail (s : State) (level set : Nat) : W64 :=
  BitVec.ofNat 64 (level + (Config.cacheWay s.free).toNat * 16 + set % 2048 * 256)

/-- The upsets of an L2 copy and its L1 copies found when it is used: single errors corrected; a double error drops a clean copy and
poisons the words of a dirty one; in L1D, dirty is what the core has written, and then the words of L2 beneath it are replaced, and no
error of theirs is found. -/
def settleL2 (s : State) (c line : Nat) : State :=
  match l2Of s c line with
  | none => s
  | some x0 =>
    let x : L2Line := if x0.wrote then { x0 with c := { x0.c with one := 0, two := 0 } } else x0
    let own := recOwner s x.c.entry
    let dirty := decide (x.st = .m ∨ x.st = .o)
    let at_ (m : BitVec 8) : Nat := 64 * line + 8 * ctz m
    let clear (y : L2Line) : L2Line := { y with c := { y.c with one := 0, two := 0 }, oneD := 0, twoD := 0, badI := false }
    let putL (s : State) (y : L2Line) : State := s.onCore c (fun k => { k with l2 := put k.l2 line y })
    let s := if x.badI then s.logErr .corrected 0 c 0x02 (64 * line + (Config.upsetByte s.free).toNat) own (cacheDetail s 0 (line % 256)) else s
    let s := if x.oneD != 0 then s.logErr .corrected 0 c 0x01 (at_ x.oneD) own (cacheDetail s 1 (line % 128)) else s
    let s := if x.c.one != 0 then s.logErr .corrected 1 c 0x01 (at_ x.c.one) own (cacheDetail s 2 (line % 2048)) else s
    let d1 := cacheDetail s 1 (line % 128)
    let d2 := cacheDetail s 2 (line % 2048)
    let mask (m : BitVec 8) : W64 := m.setWidth 64 <<< 19
    let lost1 := if x.wrote then x.twoD else 0
    let lost2 := if dirty then x.c.two else 0
    let s := if x.twoD = 0 then s
      else if x.wrote then s.logErr .deferred 0 c 0x03 (at_ x.twoD) own (d1 ||| mask x.twoD)
      else s.logErr .corrected 0 c 0x02 (at_ x.twoD) own d1
    let s := if x.c.two = 0 then s
      else if dirty then s.logErr .deferred 1 c 0x03 (at_ x.c.two) own (d2 ||| mask x.c.two)
      else s.logErr .corrected 1 c 0x02 (at_ x.c.two) own d2
    if x.c.two != 0 ∧ ¬ dirty then
      let s := s.onCore c (fun k => { k with l2 := del k.l2 line })
      match look s.dirs line with
      | some d => { s with dirs := put s.dirs line { d with
          present := setBit d.present c false, holder := if d.holder = some c then none else d.holder } }
      | none => s
    else if x.badI ∨ x.oneD != 0 ∨ x0.c.one != 0 ∨ x.twoD != 0 ∨ x0.c.two != 0 then
      putL s (let y := clear x; { y with c := { y.c with poison := y.c.poison ||| lost1 ||| lost2 } })
    else s

/-- The upsets of an LLC copy found when it is used. -/
def settleLlc (s : State) (line : Nat) : State :=
  match llcFind s line with
  | none => s
  | some (w, x) =>
    let slice := sliceOf line
    let own := recOwner s x.c.entry
    let detail := BitVec.ofNat 64 (3 + w * 16 + setOf line * 256)
    if x.c.one = 0 ∧ x.c.two = 0 then s
    else
      let y : LlcWay := { x with c := { x.c with one := 0, two := 0 } }
      let at_ (m : BitVec 8) : Nat := 64 * line + 8 * ctz m
      let s := if x.c.one != 0 then s.logErr .corrected 2 slice 0x01 (at_ x.c.one) own detail else s
      if x.c.two = 0 then { s with llc := put s.llc (llcKey line w) y }
      else if x.dirty then
        let s := s.logErr .deferred 2 slice 0x03 (at_ x.c.two) own (detail ||| (x.c.two.setWidth 64 <<< 19))
        { s with llc := put s.llc (llcKey line w) { y with c := { y.c with poison := y.c.poison ||| x.c.two } } }
      else
        let s := s.logErr .corrected 2 slice 0x02 (at_ x.c.two) own detail
        { s with llc := del s.llc (llcKey line w) }

/-! ## Directories -/

def dirOf (s : State) (line : Nat) : DirEnt := (look s.dirs line).getD ⟨0, none, 0⟩

/-- A directory entry stored, or removed when no core holds the line; the most recently used first. -/
def setDir (s : State) (line : Nat) (d : DirEnt) : State :=
  if d.present = 0 then { s with dirs := del s.dirs line, dirUse := s.dirUse.filter (· != line) }
  else { s with dirs := put s.dirs line d, dirUse := line :: s.dirUse.filter (· != line) }

/-- A core leaves the directory entry of a line. -/
def dirLeave (s : State) (c line : Nat) : State :=
  let d := dirOf s line
  setDir s line { d with present := setBit d.present c false, holder := if d.holder = some c then none else d.holder }

/-- The L2 of a core loses a line, and L1 with it (R228). -/
def l2Drop (s : State) (c line : Nat) : State := s.onCore c (fun k => { k with l2 := del k.l2 line })

/-- Cores named by a presence vector. -/
def holders (d : DirEnt) : List Nat := (List.range 192).filter (fun i => bitAt d.present i)

/-- Ways of the directory of a line's home (R229, R263). -/
def dirWays (line : Nat) : Nat := if isVault line then 16 else 20

/-! ## The LLC -/

/-- A dirty victim accepted: it is in memory, and the line its way was reserved for is written (R238). -/
def acceptVictim (s : State) (slice line : Nat) : State :=
  match s.victims.find? (fun v => v.slice == slice && v.line == line) with
  | none => s
  | some v =>
    let s := writeUnowned s v.line v.c.entry v.c.data v.c.poison
    let s := { s with victims := s.victims.filter (fun x => !(x.slice == slice && x.line == line)) }
    match v.incoming with
    | some w => { s with llc := put s.llc (llcKey w.line v.way) w }
    | none => s

/-- The victims that a line itself waits on are accepted: its own eviction, and the one its way is reserved after (R238, R239). -/
def acceptFor (s : State) (line : Nat) : State :=
  (s.victims.filter (fun v => v.line == line || (v.incoming.map (·.line)) == some line)).foldl (fun s v => acceptVictim s v.slice v.line) s

/-- The ways of a class that are not locked (R241). -/
def allowedWays (s : State) (slice qos : Nat) : List Nat :=
  let mask := s.regF .llcWaymask slice (qos / 4) 0 (16 * (qos % 4)) 16
  let locked := s.regF .llcLock slice 0 0 0 16
  (List.range 16).filter (fun w => mask.testBit w && !locked.testBit w)

/-- Whether a way is reserved for a line that waits for a victim's acceptance. -/
def reserved (s : State) (line w : Nat) : Bool :=
  s.victims.any (fun v => v.slice == sliceOf line && v.way == w && setOf v.line == setOf line)

/-- The victim buffer of a slice holds 8 (R238). -/
def victimsFull (s : State) (slice : Nat) : Bool := 8 ≤ (s.victims.filter (fun v => v.slice == slice)).length

/-- The victim that a way waits for is accepted. -/
def acceptWay (s : State) (line w : Nat) : State :=
  (s.victims.filter (fun v => v.slice == sliceOf line && v.way == w && setOf v.line == setOf line)).foldl
    (fun s v => acceptVictim s (sliceOf line) v.line) s

/-- Put a line into a way, its old line becoming a victim (R238). An allocation that no queue can hold waits here for a place in the
victim buffer. -/
def llcPlace (s : State) (line w : Nat) (x : LlcWay) : State :=
  let slice := sliceOf line
  let s := acceptWay s line w
  match look s.llc (llcKey line w) with
  | none => { s with llc := put s.llc (llcKey line w) x }
  | some old =>
    if old.dirty then
      let s := if ¬ victimsFull s slice then s
        else match s.victims.find? (fun v => v.slice == slice) with
          | some v => acceptVictim s slice v.line
          | none => s
      { s with llc := del s.llc (llcKey line w), victims := s.victims ++ [⟨slice, old.line, old.c, w, some x⟩] }
    else { s with llc := put s.llc (llcKey line w) x }

/-- The way an allocation takes (R237, R241, R242, R244): of those its class may use, one that waits for no victim where there is one;
an empty one, else one at the least recently used position, else the pseudo-LRU choice. -/
def llcChoose (s : State) (line qos : Nat) : Option Nat :=
  let all := allowedWays s (sliceOf line) qos
  let open_ := all.filter (fun w => !reserved s line w)
  let ways := if open_.isEmpty then all else open_
  match ways with
  | [] => none
  | w0 :: _ =>
    match ways.find? (fun w => (look s.llc (llcKey line w)).isNone) with
    | some w => some w
    | none =>
      match ways.find? (fun w => (look s.llc (llcKey line w)).any (·.lru)) with
      | some w => some w
      | none => some (nthD w0 ways (Config.llcVictim s.free ways.length % ways.length))

/-- An allocation while 8 victims of the slice wait (R238): it waits too. -/
def allocWaits (s : State) (line qos : Nat) : Bool :=
  !isVault line && (llcFind s line).isNone && victimsFull s (sliceOf line) && (llcChoose s line qos).isSome

/-- Allocation in the LLC (R237, R241): update in place, else an allowed way, else dirty data to memory. -/
def llcAllocate (s : State) (line qos : Nat) (c : CLine) (dirty : Bool) : State :=
  let s := settleLlc (acceptFor s line) line
  match llcFind s line with
  | some (w, x) => { s with llc := put s.llc (llcKey line w) { x with c := c, dirty := dirty || x.dirty, lru := false } }
  | none =>
    match llcChoose s line qos with
    | none => if dirty then writeUnowned s line c.entry c.data c.poison else s
    | some w => llcPlace s.useFree line w ⟨line, c, dirty, false, false⟩

/-- A hit on the LLC copy: it is no longer at the least recently used position. -/
def llcTouch (s : State) (line : Nat) : State :=
  match llcFind s line with
  | some (w, x) => if x.lru then { s with llc := put s.llc (llcKey line w) { x with lru := false } } else s
  | none => s

/-- Remove the LLC copy unless its way is locked (R244); `force` for DCR and OWN.SET, which count a locked one (R245). -/
def llcRemove (s : State) (line : Nat) (force : Bool) : State :=
  match llcFind s line with
  | none => s
  | some (w, _) =>
    let locked := (s.regF .llcLock (sliceOf line) 0 0 0 16).testBit w
    if locked ∧ ¬ force then s
    else
      let s := { s with llc := del s.llc (llcKey line w) }
      if locked then s.bump .llcEvcnt (sliceOf line) 0 0 0 16 1 else s

/-! ## Snoops -/

/-- A line of a writeback buffer goes where its WriteBack or Evict would take it (R230, R237). -/
def homeTakes (s : State) (c line : Nat) (x : CLine) (dirty : Bool) : State :=
  if isVault line then (if dirty then writeUnowned s line x.entry x.data x.poison else s)
  else llcAllocate s line (qosOf s c) x dirty

/-- The answer of a core to a snoop (R230, R232): from the L2 or the writeback buffer; the state it keeps; whether the data was
dirty. From the buffer, a line no snoop takes away is the home's from then on, and its request is discarded. -/
def snoopCore (s : State) (c line : Nat) (k : Snp) : State × (Option CLine × Bool) :=
  let s := settleL2 s c line
  match look (s.core c).wbb line with
  | some (d, dirty) =>
    let s := dirLeave (s.onCore c (fun x => { x with wbb := del x.wbb line })) c line
    let s := { s with homeq := s.homeq.filter (fun q => !(q.core == c && q.line == line && decide (q.req = .back))) }
    match k with
    | .shared => (homeTakes s c line d dirty, (some d, false))
    | .unique => (s, (some d, dirty))
    | .inv => (s, (if dirty then some d else none, dirty))
  | none =>
    match l2Of s c line with
    | none => (s, (none, false))
    | some x =>
      let dirty := decide (x.st = .m ∨ x.st = .o)
      match k with
      | .shared =>
        (s.onCore c (fun q => { q with l2 := put q.l2 line { x with st := afterShared x.st } }), (some x.c, dirty))
      | .unique => (l2Drop s c line, (some x.c, dirty))
      | .inv => (l2Drop s c line, (if dirty then some x.c else none, dirty))

/-- The snoops a request needs (R230). -/
def snoopsFor (d : DirEnt) (c : Nat) (r : Req) : List (Nat × Snp × SnpSt) :=
  let others := (holders d).filter (· != c)
  match r with
  | .readShared => match d.holder with
    | some h => if h = c then [] else [(h, .shared, .sent)]
    | none => []
  | .readUnique => others.map (fun h => (h, if d.holder = some h then Snp.unique else .inv, .sent))
  | .upgrade => if bitAt d.present c then others.map (fun h => (h, Snp.inv, .sent))
      else others.map (fun h => (h, if d.holder = some h then Snp.unique else .inv, .sent))
  | .claim => others.map (fun h => (h, Snp.inv, .sent))
  | .back | .leave => []
  | .writeFull _ _ | .recall => (holders d).map (fun h => (h, Snp.inv, .sent))

/-! ## The check at the home (R328) -/

/-- The home's check of a request: the entry its directory entry or LLC copy carries, else the target's ownership cache. The
answer is the key owner and entry, or the failure reason and deciding point (R329). -/
def homeCheck (s : State) (line : Nat) (secure : Bool) (o : Nat) (write : Bool) :
    State × Except (Nat × Nat) (Nat × W16) :=
  if memHeld s line then ({ s with stalled := true }, .error (0, 0)) else
  let point := (ownAgent s line).2.1
  let carried : Option W16 :=
    if isVault line then none
    else match look s.dirs line with
      | some d => some d.entry
      | none => (llcFind s line).map (fun p => p.2.c.entry)
  match (if tableLocked s then carried else none) with
  | some e =>
    if write ∧ inTable s (64 * line) then (s, .error (6, 2))
    else
      match checkEntry e secure o with
      | .error r => (s, .error (r, 2))
      | .ok ko => (s, .ok (ko, e))
  | none =>
    match targetCheck s line secure o write with
    | (s, .ok x) => (s, .ok x)
    | (s, .error r) => (s, .error (r, point))

/-! ## Grants and fills -/

/-- Memory's copy for a grant: a victim's data, else memory (R239). -/
def fetchLine (s : State) (line ko : Nat) (entry : W16) : State × CLine :=
  match s.victims.find? (fun v => v.line == line) with
  | some v => (s, v.c)
  | none =>
    let (s, (d, p)) := memRead s line ko
    (s, ⟨d, p, entry, 0, 0⟩)

/-- The grant of a transaction whose snoops have all been answered (R230, R231). `ko` is the key owner of its check. -/
def grant (s : State) (line : Nat) (t : Txn) (ko : Nat) : State :=
  let s := settleLlc s line
  let d := dirOf s line
  let c := t.core
  let put_ (s : State) (st : Moesi) (x : Option CLine) (mem : Bool) : State := { s with fills := s.fills ++ [⟨c, line, st, x, mem⟩] }
  let fill (s : State) (st : Moesi) (x : Option CLine) : State := put_ s st x false
  match t.req with
  | .readShared =>
    match t.got with
    | some x =>
      let x := { x with entry := t.entry }
      let alone := d.present &&& ~~~(1#192 <<< c) == 0
      let holder := if alone then some c else if t.dirty then d.holder else none
      fill (setDir s line ⟨setBit d.present c true, holder, t.entry⟩) (if alone then .e else .s) (some x)
    | none =>
      let alone := d.present &&& ~~~(1#192 <<< c) == 0
      let mem := (llcFind s line).isNone
      let (s, x) := match llcFind s line with
        | some (_, w) => (llcTouch s line, w.c)
        | none => let (s, x) := fetchLine s line ko t.entry; (s.eventFor c 0x013 1 t.who, x)
      let s := setDir s line { present := setBit d.present c true, holder := if alone then some c else d.holder, entry := t.entry }
      put_ s (if alone then .e else .s) (some { x with entry := t.entry }) mem
  | .readUnique =>
    let only (s : State) : State := setDir s line ⟨1#192 <<< c, some c, t.entry⟩
    match t.got with
    | some x => fill (only s) (if t.dirty then .m else .e) (some { x with entry := t.entry })
    | none =>
      match llcFind s line with
      | some (_, w) => fill (only (llcRemove s line false)) (if w.dirty then .m else .e) (some { w.c with entry := t.entry })
      | none =>
        let (s, x) := fetchLine s line ko t.entry
        put_ (only (s.eventFor c 0x013 1 t.who)) .e (some { x with entry := t.entry }) true
  | .upgrade =>
    let s := setDir s line ⟨1#192 <<< c, some c, t.entry⟩
    match l2Of s c line with
    | some _ => fill s .m none
    | none =>
      match t.got with
      | some x => fill s (if t.dirty then .m else .e) (some { x with entry := t.entry })
      | none =>
        match llcFind s line with
        | some (_, w) => fill (llcRemove s line false) (if w.dirty then .m else .e) (some { w.c with entry := t.entry })
        | none =>
          let (s, x) := fetchLine s line ko t.entry
          put_ (s.eventFor c 0x013 1 t.who) .e (some { x with entry := t.entry }) true
  | .claim =>
    let s := llcRemove s line false
    fill (setDir s.useFree line ⟨1#192 <<< c, some c, t.entry⟩) .m (some ⟨Config.claimedData s.free, 0, t.entry, 0, 0⟩)
  | .writeFull data poison =>
    let s := setDir s line ⟨0, none, 0⟩
    match llcFind s line with
    | some (w, x) => { s with llc := put s.llc (llcKey line w) { x with c := ⟨data, poison, t.entry, 0, 0⟩, dirty := true, lru := false } }
    | none => memWrite s line ko data poison
  | .back | .leave => s
  | .recall =>
    let s := setDir s line ⟨0, none, 0⟩
    match t.got with
    | some x => if t.dirty then
        (if isVault line then writeUnowned s line x.entry x.data x.poison
         else llcAllocate s line ((d.holder.map (qosOf s)).getD 0) x true)
      else s
    | none => s

/-- Start a request at the home: snoops are sent, and with none the grant follows at once (R230, R231). `ko` is the key owner of its
check. -/
def startTxn (s : State) (c line : Nat) (r : Req) (entry : W16) (ko : Nat) (who : Ident) : State :=
  let t : Txn := ⟨c, r, snoopsFor (dirOf s line) c r, none, false, entry, ko, who⟩
  if t.snoops.isEmpty then grant s line t ko else { s with txns := put s.txns line t }

/-- A snooped core answers (R232): a fill on its way to it is received first. -/
def answer (s : State) (c line : Nat) : State :=
  match look s.txns line with
  | none => s
  | some t =>
    match t.snoops.find? (fun x => x.1 == c && decide (x.2.2 = .sent)) with
    | none => s
    | some (_, k, _) =>
      let (s, (d, dirty)) := snoopCore s c line k
      let sn := t.snoops.map (fun x => if x.1 = c then (x.1, x.2.1, SnpSt.answered d dirty) else x)
      { s with txns := put s.txns line { t with snoops := sn } }

/-- An answer reaches the home (R231): data kept, and with the last answer the grant. Dirty data of a claim or a full-line write
is discarded. -/
def respond (s : State) (c line : Nat) : State :=
  match look s.txns line with
  | none => s
  | some t =>
    match t.snoops.find? (fun x => x.1 == c) with
    | some (_, _, .answered d dirty) =>
      let t' := { t with snoops := t.snoops.filter (fun x => x.1 != c),
                         got := if d.isSome then d else t.got, dirty := t.dirty || (dirty && d.isSome) }
      if t'.snoops.isEmpty then
        let s := { s with txns := del s.txns line }
        grant s line t' t'.ko
      else { s with txns := put s.txns line t' }
    | _ => s

/-- Every snoop of a line's transaction answered and received. -/
def finishTxn (s : State) (line : Nat) : State :=
  match look s.txns line with
  | none => s
  | some t => t.snoops.foldl (fun s x => respond (answer s x.1 line) x.1 line) s

/-! ## Eviction -/

/-- The home takes a line from the writeback buffer of a core (R230, R232). -/
def takeWriteback (s : State) (c line : Nat) : State :=
  match look (s.core c).wbb line with
  | none => s
  | some (x, dirty) =>
    homeTakes (dirLeave ({ s with qos := qosOf s c }.onCore c (fun k => { k with wbb := del k.wbb line })) c line) c line x dirty

/-- Eviction of a line from an L2 (R230): WriteBack of M or O, Evict with data of E, Evict of S, taken by the home at once. -/
def evictLine (s : State) (c line : Nat) : State :=
  let s := settleL2 s c line
  match l2Of s c line with
  | none => s
  | some x =>
    let s := dirLeave (l2Drop { s.event c 0x012 1 with qos := qosOf s c } c line) c line
    if x.st = .s then s else homeTakes s c line x.c (decide (x.st = .m ∨ x.st = .o))

/-- A line with a transaction in progress, waiting for the acceptance of a victim: itself, or the one whose way it takes (R231, R238, R239);
or being copied into a spare (R266). -/
def lineBusy (s : State) (line : Nat) : Bool :=
  (look s.txns line).isSome || (copying s line).isSome || s.victims.any (fun v => v.line == line || (v.incoming.map (·.line)) == some line)

/-- A request of the line waits in the conflict queue. -/
def queued (s : State) (line : Nat) : Bool := s.homeq.any (fun q => q.line == line)

/-- Requests of a home waiting in its conflict queue: 48 at a slice, 32 at a vault port (R233, R263). -/
def queueFull (s : State) (line : Nat) : Bool :=
  decide ((if isVault line then 32 else 48) ≤
    (s.homeq.filter (fun q => sliceOf q.line == sliceOf line && isVault q.line == isVault line)).length)

/-- The request of a line in the writeback buffer reaches its home, where it is served or queued; without credit it stays unsent (R231,
R233, R238). -/
def backArrive (s : State) (c line : Nat) : State :=
  if queueFull s line then s
  else if lineBusy s line ∨ queued s line ∨ allocWaits s line (qosOf s c) then
    { s with homeq := s.homeq ++ [⟨c, line, .back, identOf s c⟩] }
  else takeWriteback s c line

/-- The request of a line in the writeback buffer is sent: a WriteBack needs a token of its stop (R286, R288). -/
def sendBack (s : State) (c line : Nat) : State :=
  match look (s.core c).wbb line with
  | none => s
  | some (_, dirty) =>
    if dirty && chargedLine line then
      if stopHolds s (c / 2) then { s with heldReqs := s.heldReqs ++ [⟨c / 2, c, line, .back, identOf s c⟩] }
      else if queueFull s line then s
      else backArrive (takeToken s (c / 2)) c line
    else backArrive s c line

/-- A line can leave its L2 now: the writeback buffer has room, or, for an Evict of S, the home gives credit (R232, R233). -/
def mayLeave (s : State) (c line : Nat) : Bool :=
  match l2Of s c line with
  | none => true
  | some x => if x.st = .s then !queueFull s line else decide ((s.core c).wbb.length < 16)

/-- A line leaves an L2: through the writeback buffer, or as an Evict of S, behind the line's other work at its home (R230-R232). The request
counts in the core's present context, since no instruction causes it (R467; DEDUCED, log 123). -/
def leaveL2 (s : State) (c line : Nat) : State :=
  let s := settleL2 s c line
  match l2Of s c line with
  | none => s
  | some x =>
    let s := s.event c 0x012 1
    if x.st = .s then
      let s := l2Drop s c line
      if lineBusy s line ∨ queued s line then { s with homeq := s.homeq ++ [⟨c, line, .leave, identOf s c⟩] } else dirLeave s c line
    else
      sendBack (s.onCore c (fun k => { k with l2 := del k.l2 line, wbb := put k.wbb line (x.c, decide (x.st = .m ∨ x.st = .o)) })) c line

/-- Whether an L2 line is in a first-level cache. -/
def L2Line.inL1 (x : L2Line) : L1 → Bool
  | .d => x.l1d
  | .i => x.l1i
  | .none => false

/-- An L2 line put into, or dropped from, a first-level cache; what L1D held modified is then in L2, and errors in its L1D copy have gone
with it. -/
def setL1 (x : L2Line) (l : L1) (b : Bool) : L2Line :=
  match l with
  | .d => { x with l1d := b, wrote := false, oneD := 0, twoD := 0 }
  | .i => { x with l1i := b }
  | .none => x

/-- Sets and ways of a first-level cache (R224). -/
def l1Sets : L1 → Nat
  | .i => 256
  | _ => 128
def l1Ways : L1 → Nat
  | .i => 4
  | _ => 8

/-- The line in a first-level cache, one of a full set making room; what L1D held modified is written into L2, and an error in it found
(R224, R228, R303). -/
def touchL1 (s : State) (c line : Nat) (l : L1) : State :=
  match look (s.core c).l2 line with
  | none => s
  | some x =>
    if decide (l = .none) ∨ x.inL1 l then s
    else
      let same := ((s.core c).l2.filter (fun p => p.1 % l1Sets l == line % l1Sets l && p.2.inL1 l)).map (·.1)
      let s := if same.length < l1Ways l then s
        else
          let v := nthD line same (Config.l1Victim s.free same.length % same.length)
          let s := s.useFree
          let s := if l = .d ∧ ((look (s.core c).l2 v).map (·.wrote)).getD false then settleL2 s c v else s
          s.onCore c (fun k => match look k.l2 v with
            | some y => { k with l2 := put k.l2 v (setL1 y l false) }
            | none => k)
      s.onCore c (fun k => { k with l2 := put k.l2 line (setL1 x l true) })

/-- Room for a line in its L2 set of 16 ways (R224), by a line that can leave now. Where none can, the line waits beside the set, in the
entry of its miss (R236; DESIGN CHOICE, log 113). -/
def makeRoom (s : State) (c line : Nat) : State :=
  let same := ((s.core c).l2.map (·.1)).filter (fun l => l % 2048 == line % 2048 && l != line)
  let out := same.filter (fun l => mayLeave s c l)
  if same.length < 16 ∨ out.isEmpty then s
  else
    let v := nthD line out (Config.l2Victim s.free out.length % out.length)
    leaveL2 s.useFree c v

/-- A granted line arrives at its L2 (R235), and goes on to the first-level cache that asked for it. -/
def receiveFill (s : State) (c line : Nat) : State :=
  match s.fills.find? (fun f => f.core == c && f.line == line) with
  | none => s
  | some f =>
    let s := { s with fills := s.fills.filter (fun f => !(f.core == c && f.line == line)) }
    let asked := (look (s.core c).asks line).getD .none
    let s := s.onCore c (fun k => { k with asks := del k.asks line })
    match f.c with
    | none => s.onCore c (fun k => match look k.l2 line with
        | some x => { k with l2 := put k.l2 line { x with st := f.st } }
        | none => k)
    | some x =>
      let s := makeRoom s c line
      let s := s.onCore c (fun k =>
        let old := look k.l2 line
        { k with l2 := put k.l2 line ⟨f.st, x, (old.map (·.l1d)).getD false, (old.map (·.l1i)).getD false,
          (old.map (·.wrote)).getD false, 0, 0, false⟩ })
      touchL1 s c line asked

/-- Fills on their way for a line are received. -/
def receiveFills (s : State) (line : Nat) : State :=
  (s.fills.filter (fun f => f.line == line)).foldl (fun s f => receiveFill s f.core line) s

/-- A request whose check has failed at its home: a full-line write is discarded and counted (R331). -/
def refuseWrite (s : State) (line o : Nat) : Req → State
  | .writeFull _ _ => lateWrite s (64 * line) o
  | _ => s

/-- What is in progress for a line is brought to its end: a copy into a spare made (R266), victims accepted, a transaction granted, fills
received (R231-R233, R239). -/
def settleNow (s : State) (line : Nat) : State :=
  let s := receiveFills s line
  let s := match copying s line with
    | some k => vltRemapCopy s (sliceOf line) k
    | none => s
  let s := acceptFor s line
  receiveFills (finishTxn s line) line

/-- The least recently used directory entry of a full set is recalled (R234, R263). Recalls of a vault port's directory add nothing to
LLC[n].EVCNT (DESIGN CHOICE, log 114). -/
def makeDirRoom (s : State) (line : Nat) : State :=
  if (look s.dirs line).isSome then s else
  let home (l : Nat) : Bool := sliceOf l == sliceOf line && isVault l == isVault line
  let set (l : Nat) : Nat := Config.dirSet (sliceOf line) l % (if isVault line then 2048 else 4096)
  let mine := s.dirUse.filter home
  if mine.length < dirWays line then s
  else
    let same := mine.filter (fun l => set l == set line)
    if same.length < dirWays line then s
    else match same.getLast? with
      | none => s
      | some v =>
        let s := settleNow s v
        let s := finishTxn (startTxn s 0 v .recall (dirOf s v).entry 0 ⟨true, 1, s.qos, 3⟩) v
        if isVault v then s else s.bump .llcEvcnt (sliceOf v) 0 0 32 16 1

/-- A read request that its core no longer needs: an access of the core has brought the line meanwhile. -/
def staleReq (s : State) (q : QReq) : Bool :=
  (l2Of s q.core q.line).isSome && (match q.req with
    | .readShared | .readUnique | .leave => true
    | _ => false)

/-- A request that no other work of its line delays: the check with the attributes it was issued with, and the start of its
transaction. -/
def homeStart (s : State) (q : QReq) : State :=
  let s := { s with qos := q.who.qos }
  if staleReq s q then s
  else
    match q.req with
    | .back => takeWriteback s q.core q.line
    | .leave => dirLeave s q.core q.line
    | r =>
      match homeCheck s q.line q.who.secure q.who.owner (decide (r ≠ .readShared)) with
      | (s, .error _) => refuseWrite s q.line q.who.owner r
      | (s, .ok (ko, e)) => startTxn (makeDirRoom s q.line) q.core q.line r e ko q.who

/-- A request whose line's allocation must wait for the victim buffer (R238). -/
def backWaits (s : State) (q : QReq) : Bool := decide (q.req = .back) && allocWaits s q.line (qosOf s q.core)

/-- The requests of a line leave the conflict queue in order, while the line is free (R231, R233). -/
def serveN : Nat → State → Nat → State
  | 0, s, _ => s
  | n + 1, s, line =>
    if lineBusy s line then s
    else
      match s.homeq.find? (fun q => q.line == line) with
      | none => s
      | some q => if backWaits s q then s else serveN n (homeStart { s with homeq := s.homeq.erase q } q) line

def serveNext (s : State) (line : Nat) : State := serveN s.homeq.length s line

/-- Queued requests of every line that is free are served: those whose victims have been accepted among them (R239). -/
def serveReady (s : State) : State := ((s.homeq.map (·.line)).dedup).foldl serveNext s

/-- A request arrives at its home: it is served, or waits in the conflict queue behind the line's other work (R231, R233). While the
queue is full it does not arrive: it stays where it is. -/
def homeArrive (s : State) (q : QReq) : State :=
  if queueFull s q.line then s
  else if lineBusy s q.line ∨ backWaits s q then { s with homeq := s.homeq ++ [q] }
  else if queued s q.line then serveNext { s with homeq := s.homeq ++ [q] } q.line
  else homeStart s q

/-- The home gives credit again: the work of the lines in its queue comes to its end (R233). -/
def makeCredit (s : State) (line : Nat) : State :=
  if queueFull s line then
    (s.homeq.filter (fun q => sliceOf q.line == sliceOf line && isVault q.line == isVault line)).foldl
      (fun s q => serveNext (settleNow s q.line) q.line) s
  else s

/-- Requests that a stop's regulator holds are injected, each with its token, before a later one of the stop (R288). -/
def injectHeld (s : State) (stop : Nat) : State :=
  (s.heldReqs.filter (fun q => q.stop == stop)).foldl (fun s q =>
    homeArrive (makeCredit (takeToken { s with heldReqs := s.heldReqs.erase q } stop) q.line) ⟨q.core, q.line, q.req, q.who⟩) s

/-- Those that a stop no longer regulated holds, as far as their homes give credit (R288). -/
def releaseHeld (s : State) (stop : Nat) : State :=
  (s.heldReqs.filter (fun q => q.stop == stop)).foldl (fun s q =>
    if queueFull s q.line then s
    else homeArrive { s with heldReqs := s.heldReqs.erase q } ⟨q.core, q.line, q.req, q.who⟩) s

/-- A message that a stop injects for one of its ports of a QoS class (R254): a charged one behind those its regulator holds (R286,
R288). -/
def chargeAccess (s : State) (stop line qos : Nat) : State :=
  let s := { s with qos := qos }
  if chargedLine line then takeToken (injectHeld s stop) stop else s

/-- A line still in the writeback buffer of a core is taken, its request sent first where it was not. -/
def takeLate (s : State) (c line : Nat) : State :=
  match look (s.core c).wbb line with
  | none => s
  | some (_, dirty) =>
    let s := if ¬ (dirty && chargedLine line) then s
      else if s.heldReqs.any (fun q => q.core == c && q.line == line) then injectHeld s (c / 2)
      else takeToken s (c / 2)
    takeWriteback s c line

/-- A queued request served to its end. -/
def serveWhole (s : State) (line : Nat) (q : QReq) : State :=
  receiveFill (finishTxn (homeStart (acceptFor s line) q) line) q.core line

/-- Whatever concerns a line is brought to its end: what is in progress, the queued requests served in the order in which they arrived,
and lines left in writeback buffers taken (R231-R233, R239). -/
def settleLine (s : State) (line : Nat) : State :=
  let s := settleNow s line
  let waiting := s.homeq.filter (fun q => q.line == line)
  let s := { s with homeq := s.homeq.filter (fun q => q.line != line) }
  let s := waiting.foldl (fun s q => serveWhole s line q) s
  let s := (holders (dirOf s line)).foldl (fun s c => takeLate s c line) s
  serveReady (acceptFor s line)

/-! ## Misses of a core (R236) -/

/-- A request of the core for the line is already on its way. -/
def outstanding (s : State) (c line : Nat) : Bool :=
  let asks (r : Req) : Bool := decide (r ≠ .back ∧ r ≠ .leave)
  s.fills.any (fun f => f.core == c && f.line == line)
    || s.homeq.any (fun q => q.core == c && q.line == line && asks q.req)
    || s.heldReqs.any (fun q => q.core == c && q.line == line && asks q.req) || (look s.txns line).any (fun t => t.core == c)

/-- Lines an L2 has requested and not received. -/
def missing (s : State) (c : Nat) : List Nat :=
  let asks (r : Req) : Bool := decide (r ≠ .back ∧ r ≠ .leave)
  ((s.fills.filter (fun f => f.core == c)).map (·.line)
    ++ (s.homeq.filter (fun q => q.core == c && asks q.req)).map (·.line)
    ++ (s.heldReqs.filter (fun q => q.core == c && asks q.req)).map (·.line)
    ++ (s.txns.filter (fun t => t.2.core == c)).map (·.1)).dedup

/-- Outstanding misses that a first-level cache, or the walker, may have. -/
def missLimit : L1 → Nat
  | .d => 24
  | .i => 8
  | .none => 16

/-- A limit is reached: the access that asks waits, and sends no request. -/
def missFull (s : State) (c : Nat) (l : L1) : Bool :=
  let m := missing s c
  decide (64 ≤ m.length) ||
    decide (missLimit l ≤ (m.filter (fun x => decide ((look (s.core c).asks x) = some l))).length)

/-- An access that meets a limit waits until the core's misses have been received. -/
def waitMisses (s : State) (c : Nat) (l : L1) : State :=
  if missFull s c l then
    let s := injectHeld s (c / 2)
    (missing s c).foldl settleLine s
  else s

/-- A lookup in the caches of a core is a hit only where its world and owner pass the copy's entry (R328). -/
def coreHit (s : State) (c line : Nat) (w : Ident) : Option L2Line :=
  match look (s.core c).l2 line with
  | none => none
  | some x =>
    if ¬ tableLocked s then some x
    else match checkEntry x.c.entry w.secure w.owner with
      | .ok _ => some x
      | .error _ => none

/-- A miss that is already on its way for the line has brought what the access needs (R236). -/
def joined (s : State) (c line : Nat) (w : Ident) (r : Req) : Bool :=
  match coreHit s c line w with
  | none => false
  | some x => match r with
    | .readShared => true
    | .readUnique | .upgrade => decide (x.st = .m ∨ x.st = .e)
    | _ => false

/-- A request of a core to a home for a first-level cache, run to its end: the line granted and filled, or the failure of its check. It
joins a miss already made. -/
def homeRequest (s : State) (c line : Nat) (w : Ident) (r : Req) (l : L1) : State × Except (Nat × Nat) Unit :=
  let s := waitMisses s c l
  let s := if charged line r then injectHeld s (c / 2) else s
  let s := settleLine s line
  if joined s c line w r then (s, .ok ())
  else
    let s := if charged line r then takeToken s (c / 2) else s
    let r := if r = .readUnique ∧ (coreHit s c line w).isSome then .upgrade else r
    let s := { s.eventFor c 0x012 1 w with qos := w.qos }
    match homeCheck s line w.secure w.owner (decide (r ≠ .readShared)) with
    | (s, .error e) => (s, .error e)
    | (s, .ok (ko, e)) =>
      let s := makeDirRoom s line
      let s := finishTxn (startTxn s c line r e ko w) line
      (serveReady (receiveFill s c line), .ok ())

/-- A miss of a first-level cache is counted (R467). -/
def missL1 (s : State) (c line : Nat) (l : L1) (w : Ident) : State :=
  match l with
  | .d => if ((l2Of s c line).map (·.l1d)).getD false then s else s.eventFor c 0x010 1 w
  | .i => if ((l2Of s c line).map (·.l1i)).getD false then s else s.eventFor c 0x011 1 w
  | .none => s

/-- A load, fetch or walk read of a line through a core's caches with its attributes (R230, R235, R247): the copy, or a failed
check. -/
def coreRead (s : State) (c line : Nat) (l : L1) (w : Ident) : State × Except (Nat × Nat) CLine :=
  let s := missL1 (settleL2 s c line) c line l w
  match coreHit s c line w with
  | some x => (touchL1 s c line l, .ok x.c)
  | none =>
    match homeRequest s c line w .readShared l with
    | (s, .error e) => (s, .error e)
    | (s, .ok _) =>
      match l2Of s c line with
      | some x => (touchL1 s c line l, .ok x.c)
      | none => (s, .ok ⟨0, allPoison, 0, 0, 0⟩)

/-- The line in M or E for a store with its attributes (R228, R230): the copy, or a failed check. -/
def coreOwn (s : State) (c line : Nat) (w : Ident) : State × Except (Nat × Nat) CLine :=
  let s := missL1 (settleL2 s c line) c line .d w
  let pass (x : L2Line) : Bool := !tableLocked s || (match checkEntry x.c.entry w.secure w.owner with | .ok _ => true | .error _ => false)
  let req : Option Req :=
    match l2Of s c line with
    | some x => if pass x then (match x.st with | .m | .e => none | .o | .s => some .upgrade) else some .readUnique
    | none => some .readUnique
  match req with
  | none => (touchL1 s c line .d, .ok (((l2Of s c line).map (·.c)).getD ⟨0, 0, 0, 0, 0⟩))
  | some r =>
    match homeRequest s c line w r .d with
    | (s, .error e) => (s, .error e)
    | (s, .ok _) => (touchL1 s c line .d, .ok (((l2Of s c line).map (·.c)).getD ⟨0, 0, 0, 0, 0⟩))

/-- Bytes written into a line held in M or E, which becomes M (R228), with the poison of R306. -/
def writeHeld (s : State) (c line : Nat) (d : W512) (en : Nat) (poison : BitVec 8) : State :=
  s.onCore c (fun k => match look k.l2 line with
    | some x =>
      let p := (x.c.poison &&& ~~~(wholeWords en)) ||| (poison &&& wordsOf en)
      { k with l2 := put k.l2 line { x with st := .m, wrote := x.wrote || x.l1d, c := { x.c with data := mergeBytes x.c.data d en, poison := p } } }
    | none => k)

/-! ## Store streams (R240) -/

/-- The streams after a full-line store: whether the store continues one of 16 or more, which does not allocate. A fifth stream displaces
the one stored to least recently, and streams that stay while allocation resumes count again from 1 (DESIGN CHOICE, log 115). -/
def streamNext (k : Core) (line : Nat) : Core × Bool :=
  match k.streams.find? (fun t => (t.last + 1 == line && (t.up || t.len == 1)) || (t.last == line + 1 && (!t.up || t.len == 1))) with
  | some t =>
    let t' : Stream := ⟨line, t.last + 1 == line, t.len + 1⟩
    ({ k with streams := t' :: k.streams.filter (fun x => decide (x ≠ t)) }, 16 ≤ t.len)
  | none => ({ k with streams := (⟨line, true, 1⟩ :: k.streams.map (fun t => { t with len := 1 })).take 4 }, false)

/-- A store that continues no stream, or an access of one of the last 16 lines of a stream, or of all it has, starts allocation again. -/
def streamsEnd (k : Core) : Core := { k with streams := [] }

def streamTouched (k : Core) (line : Nat) : Core :=
  if k.streams.any (fun t => if t.up then line ≤ t.last && t.last < line + min 16 t.len else t.last ≤ line && line < t.last + min 16 t.len) then
    streamsEnd k else k

/-! ## Accesses performed at the home -/

/-- A read at the home, coherent and without allocation (R248, R212). -/
def homeRead (s : State) (line : Nat) (secure : Bool) (o : Nat) : State × Except (Nat × Nat) CLine :=
  let s := settleLlc (settleLine s line) line
  match homeCheck s line secure o false with
  | (s, .error e) => (s, .error e)
  | (s, .ok (ko, e)) =>
    let s := match (dirOf s line).holder with
      | some h => settleL2 s h line
      | none => s
    let (s, (d, p)) := cohRead s line ko
    (s, .ok ⟨d, p, e, 0, 0⟩)

/-- Every copy of a line taken from the cores that hold it (SnpUnique, SnpInv), with its data where it was dirty. -/
def takeCopies (s : State) (line : Nat) : State × Option CLine :=
  let hs := holders (dirOf s line)
  let (s, got) := hs.foldl (fun (acc : State × Option CLine) h =>
    let (s, (d, dirty)) := snoopCore acc.1 h line .unique
    (s, if dirty then d else acc.2)) (s, none)
  (setDir s line ⟨0, none, 0⟩, got)

/-- Bytes of a line written at the home under a passed check (R248, R212, R306): every copy is taken back, the bytes merged,
and the line goes to the LLC copy or to memory. -/
def homeMerge (s : State) (line ko : Nat) (entry : W16) (d : W512) (en : Nat) (poison : BitVec 8) : State :=
  let (s, got) := takeCopies s line
  let s := settleLlc s line
  let full := en == 2 ^ 64 - 1
  match llcFind s line with
  | some (w, x) =>
    let base := got.getD x.c
    let p := (base.poison &&& ~~~(wholeWords en)) ||| (poison &&& wordsOf en)
    { s with llc := put s.llc (llcKey line w)
                       ({ x with c := ⟨mergeBytes base.data d en, p, entry, 0, 0⟩, dirty := true, lru := false }) }
  | none =>
    if isVault line then
      let s := match got with
        | some g => vaultWrite s line g.data (2 ^ 64 - 1) g.poison
        | none => s
      vaultWrite s line d en poison
    else
      let (s, base) := match got with
        | some g => (s, g)
        | none => if full then (s, ⟨d, 0, entry, 0, 0⟩) else fetchLine s line ko entry
      let p := (base.poison &&& ~~~(wholeWords en)) ||| (poison &&& wordsOf en)
      memWrite s line ko (mergeBytes base.data d en) p

/-- A write at the home with its check. -/
def homeWrite (s : State) (line : Nat) (secure : Bool) (o : Nat) (d : W512) (en : Nat) (poison : BitVec 8) :
    State × Except (Nat × Nat) Unit :=
  let s := settleLine s line
  match homeCheck s line secure o true with
  | (s, .error e) => (s, .error e)
  | (s, .ok (ko, e)) => (homeMerge s line ko e d en poison, .ok ())

/-- A read-modify-write of up to 8 bytes at the home (R94): the copies are recovered, the operation applied. The answer is the
old bytes, or poison, or a failed check. `f` gives the new value from the old. -/
def homeAtomic (s : State) (line : Nat) (secure : Bool) (o : Nat) (off len : Nat) (f : W64 → Option W64) :
    State × Except (Nat × Nat) (Option W64) :=
  let s := settleLine s line
  match homeCheck s line secure o true with
  | (s, .error e) => (s, .error e)
  | (s, .ok (ko, e)) =>
    let (s, got) := takeCopies s line
    let s := settleLlc s line
    let (s, base) := match got with
      | some g => (s, g)
      | none => match llcFind s line with
        | some (_, x) => (s, x.c)
        | none => fetchLine s line ko e
    let s := match got with
      | some g => homeMerge s line ko e g.data (2 ^ 64 - 1) g.poison
      | none => s
    if base.poison &&& wordsOf (enables off len) != 0 then (s, .ok none)
    else
      let old : W64 := (base.data >>> (8 * off)).setWidth 64 &&& BitVec.ofNat 64 (2 ^ (8 * len) - 1)
      let s := match f old with
        | some v => homeMerge s line ko e (v.setWidth 512 <<< (8 * off)) (enables off len) 0
        | none => s
      (s, .ok (some old))

/-! ## Emptying an L2 -/

/-- A line written back or dropped, whatever is in progress for it coming to its end first. -/
def evictWhole (s : State) (c line : Nat) : State :=
  let s := settleLine s line
  match l2Of s c line with
  | none => s
  | some x => evictLine (if x.st = .m ∨ x.st = .o then chargeAccess s (c / 2) line (qosOf s c) else s) c line

/-- Lines a core has asked for, or has in its writeback buffer. -/
def linesOut (s : State) (c : Nat) : List Nat := (missing s c ++ (s.core c).wbb.map (·.1)).dedup

/-- What the core has under way comes to its end, and every line leaves its L2. -/
def emptyL2 (s : State) (c : Nat) : State :=
  let s := injectHeld s (c / 2)
  let s := (linesOut s c).foldl settleLine s
  ((s.core c).l2.map (·.1)).foldl (fun s l => evictWhole s c l) s

/-! ## Maintenance (R246) -/

/-- DCR.CLEAN of a line: dirty copies written back, lines kept valid. -/
def cleanLine (s : State) (line : Nat) : State :=
  let s := settleLlc (settleLine s line) line
  let s := (holders (dirOf s line)).foldl (fun s h => settleL2 s h line) s
  let d := dirOf s line
  let dirtyCore : Option (Nat × L2Line) := d.holder.bind (fun h => (l2Of s h line).map (fun x => (h, x)))
  let s := match dirtyCore with
    | some (h, x) =>
      if x.st = .m ∨ x.st = .o then
        let s := s.onCore h (fun k => { k with l2 := put k.l2 line { x with st := if x.st = .m then .e else .s, wrote := false } })
        let s := if x.st = .o then setDir s line { d with holder := none } else s
        let s := match llcFind s line with
          | some (w, y) => { s with llc := put s.llc (llcKey line w) { y with c := x.c, dirty := false } }
          | none => s
        writeUnowned s line x.c.entry x.c.data x.c.poison
      else s
    | none => s
  match llcFind s line with
  | some (w, y) => if y.dirty then
      writeUnowned ({ s with llc := put s.llc (llcKey line w) { y with dirty := false } }) line y.c.entry y.c.data y.c.poison
    else s
  | none => s

/-- DCR.INV of a line: every copy discarded. -/
def discardLine (s : State) (line : Nat) : State :=
  let s := settleLine s line
  let s := (holders (dirOf s line)).foldl (fun s h => l2Drop s h line) s
  let s := setDir s line ⟨0, none, 0⟩
  llcRemove s line true

/-- DCR.CINV of a line. -/
def flushLine (s : State) (line : Nat) : State := discardLine (cleanLine s line) line

end Sys2Proof.Machine
end

