-- ==== Sys2Proof/Machine/Router.lean ====
section
/-! DEFINITION. The interrupt router (chapter 16): raising sources, virtual CPUs and posted tables, presentation, selection at a
core, end of interrupt. -/

namespace Sys2Proof.Machine

/-! ## Sources -/

/-- Sources whose group is fixed secure (Table 1 of 16). -/
def fixedSecure (n : Nat) : Bool := n == 0 || n == 1 || n == 7

/-- SRCn as it reads: GROUP is 1 for the fixed secure sources. -/
def srcOf (s : State) (n : Nat) : W64 :=
  let v := s.reg .irtSrc 0 n 0
  if fixedSecure n then setBit v 3 true else v

def srcPrio (v : W64) : Nat := fld v 6 4
def srcTarget (v : W64) : Nat := fld v 12 12

/-- The core on which a virtual CPU is resident. -/
def residentOn (s : State) (v : Nat) : Option Nat := (s.irt.resident.find? (fun p => p.2 == v)).map (·.1)

/-- Presentation is on (R463). -/
def routerRuns (s : State) : Bool := bitAt (s.reg .irtCtl 0 0 0) 0 && !s.irt.held

def clearP (s : State) (n : Nat) : State :=
  { s.setReg .irtSrc 0 n 0 (setBit (s.reg .irtSrc 0 n 0) 1 false) with irt := { s.irt with age := del s.irt.age n } }

/-! ## Posted pending tables -/

/-- A posted-table access not made (R458, R459). -/
def vfail (s : State) (v : Nat) : State :=
  (s.bump .irtVfail 0 0 0 0 16 1).setRegF .irtVfail 0 0 0 16 12 v

/-- A word of the router's own, as a far atomic at the home with owner 0 in the normal world (R457): the old value, or none where
the access cannot be used. -/
def routerWord (s : State) (pa : Nat) (f : W64 → Option W64) : State × Option W64 :=
  if (regionAt' pa) ∧ populated s pa ∧ pa % 8 = 0 then
    match homeAtomic { s with qos := s.regF .irtCfg 0 0 0 0 6 } (pa / 64) false 0 (pa % 64) 8 f with
    | (s, .ok (some v)) => (s, some v)
    | (s, _) => (s, none)
  else (s, none)
where
  regionAt' (pa : Nat) : Bool := (regionOf pa).memory

/-- The entry of a virtual CPU (R457): the address of its table, and its doorbell. -/
def vcpuEntry (s : State) (v : Nat) : State × Option (Nat × Option Nat) :=
  let base := fld (s.reg .irtVbase 0 0 0) 12 40 * 4096 + 16 * v
  match routerWord s base (fun _ => none) with
  | (s, none) => (s, none)
  | (s, some w0) =>
    if ¬ bitAt w0 0 then (s, none)
    else
      match routerWord s (base + 8) (fun _ => none) with
      | (s, none) => (s, none)
      | (s, some w1) => (s, some (fld w0 9 43 * 512, if bitAt w1 12 then some (fld w1 0 12) else none))

/-- A source's bit is ORed into the table of `v` (R458); the answer is the entry's doorbell. -/
def postBit (s : State) (v n : Nat) : State × Option Nat :=
  match vcpuEntry s v with
  | (s, none) => (vfail s v, none)
  | (s, some (ppt, db)) =>
    match routerWord s (ppt + n / 64 * 8) (fun old => some (old ||| (1#64 <<< (n % 64)))) with
    | (s, none) => (vfail s v, none)
    | (s, some _) => (s, db)

/-- A virtual-mode event (R458): left pending for a resident virtual CPU, else posted, with the doorbell raised. -/
def deliverVirtual (s : State) (n : Nat) : State :=
  let v := srcOf s n
  if ¬ bitAt v 4 ∨ bitAt v 3 ∨ ¬ bitAt v 1 then s
  else if (residentOn s (srcTarget v)).isSome then s
  else
    match postBit (clearP s n) (srcTarget v) n with
    | (s, some d) => s.raiseSource d
    | (s, none) => s

/-- The events of virtual-mode sources not yet handled; they wait while requests to memory wait (R422). -/
def settleLate (s : State) : State :=
  if ¬ routerRuns s ∨ s.power.memWait then s
  else s.irt.late.foldl deliverVirtual { s with irt := { s.irt with late := [] } }

/-- An event of a source, delivered (R451, R458). -/
def raiseEvent (s : State) (n : Nat) : State := settleLate (s.raiseSource n)

/-! ## Residency (R459) -/

/-- Step 1 for the old virtual CPU: its pending sources go to its table. -/
def leaveVcpu (s : State) (v : Nat) : State :=
  (s.irt.age.map (·.1)).foldl (fun s n =>
    let x := srcOf s n
    if bitAt x 4 ∧ ¬ bitAt x 3 ∧ srcTarget x = v ∧ bitAt x 1 then (postBit (clearP s n) v n).1 else s) s

/-- Step 2 for the new virtual CPU: its table is emptied into P bits. -/
def joinVcpu (s : State) (v : Nat) : State :=
  match vcpuEntry s v with
  | (s, none) => vfail s v
  | (s, some (ppt, _)) =>
    (List.range 64).foldl (fun s w =>
      match routerWord s (ppt + 8 * w) (fun _ => some 0) with
      | (s, none) => vfail s v
      | (s, some old) => (maskBits old).foldl (fun s b => s.raiseSource (64 * w + b)) s) s
where
  maskBits (x : W64) : List Nat := (List.range 64).filter (fun i => bitAt x i)

/-- A residency change: at once, or postponed while nothing is presented or earlier ones wait (R463). -/
def moveVcpu (s : State) (old new : Option Nat) : State :=
  if ¬ routerRuns s ∨ ¬ s.irt.lateRes.isEmpty then { s with irt := { s.irt with lateRes := s.irt.lateRes ++ [(old, new)] } }
  else
    let s := match old with
      | some v => leaveVcpu s v
      | none => s
    match new with
    | some v => settleLate (joinVcpu s v)
    | none => s

/-- The residency of a core changes; a virtual CPU resident elsewhere leaves that core first. -/
def setResident (s : State) (c : Nat) (new : Option Nat) : State :=
  let old := look s.irt.resident c
  let shownOff (s : State) (c : Nat) : State := { s with irt := { s.irt with shown := del s.irt.shown (3 * c + 2) } }
  let s := match new.bind (residentOn s) with
    | some c' => if c' = c then s else
        let s := shownOff { s with irt := { s.irt with resident := del s.irt.resident c' } } c'
        moveVcpu s new none
    | none => s
  let s := shownOff s c
  let s := { s with irt := { s.irt with resident := match new with
    | some v => put s.irt.resident c v
    | none => del s.irt.resident c } }
  moveVcpu s old new

/-- Presentation stops (R463): every source presented returns to its slot, still pending. -/
def recallAll (s : State) : State := { s with irt := { s.irt with shown := [] } }

/-- Presentation resumes (R463): postponed accesses first, once memory serves them (R422). -/
def resumeRouter (s : State) : State :=
  if ¬ routerRuns s ∨ s.power.memWait then s else
  let todo := s.irt.lateRes
  let s := { s with irt := { s.irt with lateRes := [] } }
  settleLate (todo.foldl (fun s p => moveVcpu s p.1 p.2) s)

/-! ## Presentation (R453) -/

/-- A source that may be presented in a slot of a core: 0 secure, 1 normal, 2 virtual. -/
def fitsSlot (s : State) (c slot n : Nat) : Bool :=
  let v := srcOf s n
  let ready : Bool := bitAt v 0 && bitAt v 1 && !bitAt v 2
  match slot with
  | 0 => ready && bitAt v 3 && srcTarget v == c
  | 1 => ready && !bitAt v 3 && !bitAt v 4 && srcTarget v == c
  | _ => ready && !bitAt v 3 && bitAt v 4 && some (srcTarget v) == look s.irt.resident c

def srcAge (s : State) (n : Nat) : Nat := lookD s.irt.next s.irt.age n

/-- The lower PRIO, then the older, then the lower number. -/
def better (s : State) (a b : Nat) : Bool :=
  let pa := srcPrio (srcOf s a)
  let pb := srcPrio (srcOf s b)
  pa < pb || (pa == pb && (srcAge s a < srcAge s b || (srcAge s a == srcAge s b && a < b)))

/-- The router's choice for a slot. -/
def choice (s : State) (c slot : Nat) : Option Nat :=
  ((s.irt.age.map (·.1)).filter (fitsSlot s c slot)).foldl (fun best n =>
    match best with
    | none => some n
    | some b => if better s n b then some n else some b) none

/-- The choice for a slot is sent to its core, after every access to a posted table that waits (R463). -/
def present (s : State) (c slot : Nat) : State :=
  let s := settleLate s
  if ¬ routerRuns s ∨ ¬ s.irt.late.isEmpty ∨ ¬ s.irt.lateRes.isEmpty then s
  else
    match choice s c slot with
    | some n => { s with irt := { s.irt with shown := put s.irt.shown (3 * c + slot) n } }
    | none => { s with irt := { s.irt with shown := del s.irt.shown (3 * c + slot) } }

/-- A source presented to a core that is no longer the slot's choice returns, with its P and age. -/
def displaced (s : State) (c slot : Nat) : State :=
  match look s.irt.shown (3 * c + slot) with
  | none => s
  | some n => if choice s c slot = some n then s else { s with irt := { s.irt with shown := del s.irt.shown (3 * c + slot) } }

/-! ## Selection at a core (R63, R455, R460) -/

/-- Timer `t` of 0 to 2 is reached. -/
def timerHit (s : State) (c t : Nat) : Bool :=
  let d := ((s.core c).crEff (0x48 + t)).toNat
  d != 0 && d ≤ s.coreTime

/-- A local source is pending (Table 2 of 16). -/
def localPending (s : State) (c n : Nat) : Bool :=
  match n with
  | 0 | 1 | 2 => timerHit s c n
  | 8 => overflowPending s c
  | 9 => bitAt ((s.core c).crBase 0xA3) 0
  | _ => false

/-- An interrupt a core may enter: taking level, level before redirection, PRIO, age, global, virtual, number as DETAIL gives it. -/
structure Cand where
  t : Nat
  orig : Nat
  prio : Nat
  age : Nat
  glob : Bool
  virt : Bool
  num : Nat
deriving DecidableEq, Repr

/-- The taking level of a source with a route level and group, if R63 lets it be taken at some time now: the level, and the level
before redirection. -/
def takes (k : Core) (route : Nat) (secureGroup : Bool) : Option (Nat × Nat) :=
  if ¬ secureGroup ∧ k.secure then none
  else
    let t := if route = 2 ∧ 2 ≤ k.owner.toNat ∧ k.owner.toNat ≤ 4094 then 3 else route
    let other := decide (t = 3) && !k.secure
    if t < k.pl then none
    else if other ∨ k.pl < t then some (t, route)
    else if k.ie then some (t, route)
    else none

/-- The same regardless of CR.STATUS.IE, as WAIT and wake look at it (R115). -/
def wakesAt (k : Core) (route : Nat) (secureGroup : Bool) : Bool := (takes { k with status := setBit k.status 3 true } route secureGroup).isSome

/-- Route level and group of a presented source in a slot. -/
def slotRoute (k : Core) (slot : Nat) : Nat × Bool :=
  match slot with
  | 0 => (3, true)
  | 1 => (if bitAt (k.crBase 0x210) 0 then 2 else 1, false)
  | _ => (1, false)

/-- Route level, group and PRIO of a local source. -/
def localRoute : Nat → Nat × Bool × Nat
  | 0 => (1, false, 4)
  | 1 => (2, false, 4)
  | 2 => (3, true, 4)
  | _ => (1, false, 12)

/-- Every candidate with its route, before R63: global ones presented to the core and local ones pending. -/
def candidates (s : State) (c : Nat) : List (Nat × Bool × Cand) :=
  let k := s.core c
  ([0, 1, 2].filterMap (fun slot => (look s.irt.shown (3 * c + slot)).map (fun n =>
    let (r, g) := slotRoute k slot
    (r, g, ⟨0, 0, srcPrio (srcOf s n), srcAge s n, true, slot == 2, n⟩))))
  ++ ([0, 1, 2, 8, 9].filter (localPending s c)).map (fun n =>
    let (r, g, p) := localRoute n
    (r, g, ⟨0, 0, p, lookD s.irt.next k.lage n, false, false, 0x1000 + n⟩))

/-- The eligible ones (R455): R63 allows the entry now and PRIO is below the mask of the taking level. -/
def eligible (s : State) (c : Nat) : List Cand :=
  let k := s.core c
  (candidates s c).filterMap (fun (r, g, x) =>
    match takes k r g with
    | none => none
    | some (t, o) => if x.prio < fld (k.crEff (0x3F + t)) 0 5 then some { x with t := t, orig := o } else none)

/-- The order of R455. -/
def Cand.before (a b : Cand) : Bool :=
  if a.t ≠ b.t then b.t < a.t
  else if a.prio ≠ b.prio then a.prio < b.prio
  else if a.age ≠ b.age then a.age < b.age
  else if a.glob ≠ b.glob then b.glob
  else if a.virt ≠ b.virt then b.virt
  else a.num < b.num

def firstCand (l : List Cand) : Option Cand :=
  l.foldl (fun best x => match best with
    | none => some x
    | some b => if x.before b then some x else some b) none

/-- Some candidate ends a WAIT or wakes the core (R115, R421). -/
def wakePending (s : State) (c : Nat) : Bool :=
  (candidates s c).any (fun (r, g, _) => wakesAt (s.core c) r g)

/-- An eligible interrupt stands pending. -/
def interruptReady (s : State) (c : Nat) : Bool := (firstCand (eligible s c)).isSome

/-! ## Taking and ending (R454) -/

/-- The core reports a global source taken: P clear, A set, the taker recorded. -/
def takeSource (s : State) (c t n : Nat) : State :=
  let age := srcAge s n
  let s := { s with irt := { s.irt with shown := s.irt.shown.filter (fun p => p.2 != n) } }
  let v := s.reg .irtSrc 0 n 0
  { s.setReg .irtSrc 0 n 0 (setBit (setBit v 1 false) 2 true) with
    irt := { s.irt with taker := put s.irt.taker n (c * 4 + t, age), age := del s.irt.age n } }

/-- A source reported taken returns as displaced: P set, A clear, its age kept (R193). -/
def untakeSource (s : State) (n : Nat) : State :=
  let v := s.reg .irtSrc 0 n 0
  let age := ((look s.irt.taker n).map (·.2)).getD s.irt.next
  { s.setReg .irtSrc 0 n 0 (setBit (setBit v 1 true) 2 false) with
    irt := { s.irt with taker := del s.irt.taker n, age := put s.irt.age n age } }

/-- Whether the status bit behind a source is still 1 (R451). -/
def statusBit (s : State) (n : Nat) : Bool :=
  if n = 1 then bitAt (s.reg .wkMbstat 0 1 0) 1
  else if n = 2 then bitAt (s.reg .wkMbstat 0 0 0) 1
  else if n = 0 then bitAt (s.reg .ownSwdctl 0 0 0) 1
  else if n = 3 then bitAt (s.reg .meshErrsig 132 0 0) 0
  else if n = 4 then bitAt (s.reg .meshErrsig 132 0 0) 1
  else
    let port (n : Nat) : RootPort := lookD RootPort.reset (lookD Rc.reset s.rcs (n / 4)).ports (n % 4)
    if 16 ≤ n ∧ n < 48 then (port (n - 16)).slot &&& 0x11F != 0
    else if 48 ≤ n ∧ n < 80 then (port (n - 48)).pme
    else if 96 ≤ n ∧ n < 128 then (port (n - 96)).aer != 0
    else false

/-- End of an interrupt (R454): by its taker, or from the secure world. A status bit still 1 raises its source again (R451). -/
def endInterrupt (s : State) (c n : Nat) : State :=
  let k := s.core c
  let v := s.reg .irtSrc 0 n 0
  let mine : Bool := k.secure || (look s.irt.taker n).map (·.1) == some (c * 4 + k.pl)
  if bitAt v 2 ∧ mine then
    let s := { s.setReg .irtSrc 0 n 0 (setBit v 2 false) with irt := { s.irt with taker := del s.irt.taker n } }
    if statusBit s n then raiseEvent s n else s
  else s

end Sys2Proof.Machine
end

