-- ==== Sys2Proof/Machine/Irt.lean ====
section
/-! DEFINITION. The interrupt router's registers and events (chapter 16): SRCn, SWINT, doorbells, the normal watchdog, GPIO
edges, timers. -/

namespace Sys2Proof.Machine

/-! ## SRCn (R451, R452) -/

/-- A normal-world access while GROUP is 1 behaves as one to an S- field. -/
def srcHidden (s : State) (n : Nat) (x : Attr) : Bool := bitAt (srcOf s n) 3 && !attrSec x

def srcRead (s : State) (a : RegAt) (off len : Nat) (x : Attr) : State × W64 :=
  let s := if attrLevel x < a.d.level then deny s a.d a.n else s
  if srcHidden s a.k x then (s, 0)
  else (s, sliceBytes (openBits a.d (srcOf s a.k) x) off len)

/-- A write: GROUP is fixed for sources 0, 1 and 7, GROUP 1 leaves MODE at 0, and a TARGET of 192 or more is not taken with MODE
0. A source whose P is cleared loses its age. -/
def srcWrite (s : State) (a : RegAt) (off len : Nat) (v : W64) (x : Attr) : State :=
  let s := levelWrite s a x
  if srcHidden s a.k x then s
  else
    let old := srcOf s a.k
    let w := fieldsWritten a.d old v off len x (fun _ => true)
    let w := if fixedSecure a.k then setBit w 3 true else w
    let w := if bitAt w 3 then setBit w 4 false else w
    let w := if ¬ bitAt w 4 ∧ 192 ≤ fld w 12 12 then setFld w 12 12 (fld old 12 12) else w
    let s := s.setReg .irtSrc 0 a.k 0 w
    if bitAt w 1 then s else { s with irt := { s.irt with age := del s.irt.age a.k } }

/-! ## SWINT and doorbells (R456) -/

/-- A write of SWINT raises its source; from the normal world not a secure-group one, nor one below 256 (DEDUCED, log 22). -/
def swintWrite (s : State) (a : RegAt) (off len : Nat) (v : W64) (x : Attr) : State :=
  let s := levelWrite s a x
  if ¬ acts a off len x 0 then s
  else
    let n := fld (inputWord off len v) 0 12
    if ¬ attrSec x ∧ (n < 256 ∨ bitAt (srcOf s n) 3) then s else raiseEvent s n

/-- A doorbell from a stream of a root complex (R456). -/
def doorbellIn (s : State) (rc sid : Nat) (data : W32) : State :=
  let n := fld data 0 12
  let v := srcOf s n
  let wrong : Bool := bitAt v 5 && (fld v 24 3 != rc || fld v 32 16 != sid)
  if fld data 12 20 ≠ 0 ∨ n < 256 ∨ wrong ∨ bitAt v 3 then s.bump .irtDbrej 0 0 0 0 16 1
  else raiseEvent s n

/-! ## The normal watchdog (R462) -/

/-- A core is halted in a world: under effective NINV or SINV (R342, R462). -/
def haltedIn (s : State) (secure : Bool) : Bool := s.cores.any (fun p => decide (p.2.run = .halted) && p.2.secure == secure)

def nwdPaused (s : State) : Bool := decide (s.power.pkg ≠ .running) || haltedIn s false

/-- PERIOD is loaded, for the first stage. -/
def nwdLoad (s : State) : State :=
  let v := s.reg .irtNwdctl 0 0 0
  { s.setReg .irtNwdctl 0 0 0 (setFld v 32 16 (fld v 16 16)) with irt := { s.irt with nwdStage := 0 } }

/-- A write of NWDCTL: RUN and PERIOD are fixed while LOCK is 1; RUN becoming 1 loads PERIOD. -/
def nwdctlWrite (s : State) (a : RegAt) (off len : Nat) (v : W64) (x : Attr) : State :=
  let s := levelWrite s a x
  let old := s.reg .irtNwdctl 0 0 0
  let w := fieldsWritten a.d old v off len x (fun f => !(bitAt old 1 && (f.lo == 0 || f.lo == 16)))
  let s := s.setReg .irtNwdctl 0 0 0 w
  if ¬ bitAt old 0 ∧ bitAt w 0 then nwdLoad s else s

/-- A write of 0x4B to NWDKICK. -/
def nwdkickWrite (s : State) (a : RegAt) (off len : Nat) (v : W64) (x : Attr) : State :=
  let s := levelWrite s a x
  if acts a off len x 0 ∧ fld (inputWord off len v) 0 8 = 0x4B then nwdLoad s else s

/-- First expiry: STAGE1, source 6, PERIOD again. -/
def nwdFirst (s : State) : State :=
  let v := s.reg .irtNwdctl 0 0 0
  let s := s.setReg .irtNwdctl 0 0 0 (setFld (setBit v 2 true) 32 16 (fld v 16 16))
  raiseEvent { s with irt := { s.irt with nwdStage := 1 } } 6

/-- Second expiry: STAGE2, source 7, and the count stops. -/
def nwdSecond (s : State) : State :=
  let v := s.reg .irtNwdctl 0 0 0
  let s := s.setReg .irtNwdctl 0 0 0 (setFld (setBit v 3 true) 32 16 0)
  raiseEvent { s with irt := { s.irt with nwdStage := 2 } } 7

/-- Whether the normal watchdog counts in a stage. -/
def nwdCounts (s : State) (stage : Nat) : Bool :=
  bitAt (s.reg .irtNwdctl 0 0 0) 0 && s.irt.nwdStage == stage && !nwdPaused s

/-- One millisecond of the normal watchdog. -/
def nwdMs (s : State) : State :=
  if nwdCounts s 0 ∨ nwdCounts s 1 then
    let r := s.regF .irtNwdctl 0 0 0 32 16
    if 1 < r then s.setRegF .irtNwdctl 0 0 0 32 16 (r - 1)
    else if s.irt.nwdStage = 0 then nwdFirst s else nwdSecond s
  else s

/-! ## The router's events as commands -/

/-- Whether an on-chip block may raise a source (R451 and its Table 1): a status-bit source while its bit is 1, the watchdog's after its
stages, WAKE_N while the package runs, IOMMU faults, a GPIO edge that GPIOEDGE selects, and from 256 up one that the VIINT of a
virtual instance names. -/
def mayRaise (s : State) (n : Nat) : Bool :=
  if n < 5 ∨ (16 ≤ n ∧ n < 80) ∨ (96 ≤ n ∧ n < 128) then statusBit s n
  else if n = 5 then decide (s.power.pkg = .running)
  else if n = 6 then bitAt (s.reg .irtNwdctl 0 0 0) 2
  else if n = 7 then bitAt (s.reg .irtNwdctl 0 0 0) 3
  else if 80 ≤ n ∧ n < 92 then true
  else if 128 ≤ n ∧ n < 144 then
    bitAt (s.reg .irtGpioedge 0 0 0) (n - 128) || bitAt (s.reg .irtGpioedge 0 0 0) (16 + (n - 128))
  else decide (256 ≤ n) && (List.range 4).any (fun k => (List.range 256).any (fun v =>
    let i := s.reg .oecViint k v 0
    bitAt i 12 && fld i 0 12 == n))

/-- SOURCE_EVENT: an on-chip block raises a source (R451, R458). -/
def execSourceEvent (n : BitVec 12) (s : State) : Result :=
  doneOr s (if mayRaise s n.toNat then raiseEvent s n.toNat else s)

/-- PRESENT_SOURCE: the choice for a slot of a core is sent to it (R453). -/
def execPresentSource (c : CoreId) (slot : Fin 3) (s : State) : Result := doneOr s (present s c slot)

/-- DISPLACED_SOURCE: a core returns a source that is no longer the choice (R453). -/
def execDisplacedSource (c : CoreId) (slot : Fin 3) (s : State) : Result := doneRun s (displaced s c slot)

/-- TIMER_REACHED: a local timer source becomes pending where CR.TIME has reached its deadline, and its age is taken once (R455,
R460). -/
def execTimerReached (c : CoreId) (t : Fin 3) (s : State) : Result :=
  doneRun s (
    if timerHit s c t ∧ (look (s.core c).lage t).isNone then localAge s c t else s)

/-- NWD_STAGE1: the first stage of the normal watchdog runs out (R462). -/
def execNwdStage1 (s : State) : Result := doneOr s (if nwdCounts s 0 then nwdFirst s else s)

/-- NWD_STAGE2: the second stage runs out (R462). -/
def execNwdStage2 (s : State) : Result := doneOr s (if nwdCounts s 1 then nwdSecond s else s)

end Sys2Proof.Machine
end

