-- ==== Sys2Proof/Machine/Blocks.lean ====
section
/-! DEFINITION. How uncore blocks are changed (R260): CTL and STAT, held settings, secure claims (R341), the refusal log (R427),
and the decoder windows (R261). -/

namespace Sys2Proof.Machine

/-! ## Refusals -/

/-- A refusal or abort is counted and logged (R427). -/
def refuse (s : State) (coreid state : Nat) (aborted : Bool) (step refuser owner block : Nat) : State :=
  let s := s.bump .lvRcnt 0 refuser 0 0 32 1
  let ptr := s.reg .lvRlogptr 0 0 0
  let slot := fld ptr 0 6
  let total := fld ptr 16 16
  let w1 : W64 := BitVec.ofNat 64 (coreid % 256 + state * 2 ^ 8 + b2n aborted * 2 ^ 11 + step * 2 ^ 12 + refuser * 2 ^ 16
    + owner * 2 ^ 24 + block * 2 ^ 36 + total * 2 ^ 48)
  let s := (s.setReg .lvRlog 0 (2 * slot) 0 (BitVec.ofNat 64 s.now)).setReg .lvRlog 0 (2 * slot + 1) 0 w1
  s.setReg .lvRlogptr 0 0 0 (setFld (setFld ptr 0 6 (slot + 1)) 16 16 (total + 1))

/-! ## Claims (R341) -/

def claimed (s : State) : Block → Bool
  | .mc n => bitAt (s.reg .ownClaim1 0 0 0) (32 + n)
  | .rc k => bitAt (s.reg .ownClaim1 0 0 0) (48 + k)
  | .oec k => bitAt (s.reg .ownClaim1 0 0 0) (56 + k)
  | .irt => bitAt (s.reg .ownClaim1 0 0 0) 60
  | .vlt _ => bitAt (s.reg .ownClaim1 0 0 0) 61

/-- A tile is claimed. -/
def tileClaimed (s : State) (t : Nat) : Bool :=
  if t < 64 then bitAt (s.reg .ownClaim0 0 0 0) t else bitAt (s.reg .ownClaim1 0 0 0) (t - 64)

/-! ## CTL and STAT -/

def ctlOf : Block → RegId × Nat
  | .mc n => (.mcCtl, n)
  | .vlt n => (.vltCtl, n)
  | .oec k => (.oecCtl, k)
  | .rc k => (.rcCtl, k)
  | .irt => (.irtCtl, 0)

def statOf : Block → RegId × Nat
  | .mc n => (.mcStat, n)
  | .vlt n => (.vltStat, n)
  | .oec k => (.oecStat, k)
  | .rc k => (.rcStat, k)
  | .irt => (.irtStat, 0)

/-- The mesh stop of a block (R487). -/
def stopOf (b : Block) : Nat := (defOf (ctlOf b).1).elim 0 (fun d => servingStop d (ctlOf b).2)

def blockRuns (s : State) (b : Block) : Bool := bitAt (s.reg (ctlOf b).1 (ctlOf b).2 0 0) 0
def quiesced (s : State) (b : Block) : Bool := bitAt (s.reg (statOf b).1 (statOf b).2 0 0) 0

/-- RUN is 0 and no work remains: held settings take effect. -/
def mayHold (s : State) (b : Block) : Bool := !blockRuns s b && quiesced s b

/-- REFUSED is set. -/
def setRefused (s : State) (b : Block) : State :=
  let (i, n) := ctlOf b
  s.setReg i n 0 0 (setBit (s.reg i n 0 0) 1 true)

/-- RUN written 0: refused from the normal world for a claimed block. -/
def clearRun (s : State) (b : Block) (x : Attr) : State :=
  if ¬ blockRuns s b then s
  else if claimed s b ∧ ¬ attrSec x then refuse (setRefused s b) 0xFF 5 false 1 0x01 x.owner.toNat (stopOf b)
  else
    let (i, n) := ctlOf b
    s.setReg i n 0 0 (setBit (s.reg i n 0 0) 0 false)

/-- The clock of a block is stopped by BLKPWR (R424). -/
def clockOff (s : State) : Block → Bool
  | .oec k => bitAt (s.reg .lvBlkpwr 0 0 0) k
  | .rc k => bitAt (s.reg .lvBlkpwr 0 0 0) (8 + k)
  | _ => false

/-- A write of RUN = 1 restarts a block's clock (R424). -/
def clockOn (s : State) : Block → State
  | .oec k => s.setReg .lvBlkpwr 0 0 0 (setBit (s.reg .lvBlkpwr 0 0 0) k false)
  | .rc k => s.setReg .lvBlkpwr 0 0 0 (setBit (s.reg .lvBlkpwr 0 0 0) (8 + k) false)
  | _ => s

/-- RUN written 1, with the block's reason to refuse, 0 for none. While work is still in flight the block resumes. -/
def setRun (s : State) (b : Block) (errcode : Nat) : State :=
  let s := clockOn s b
  if blockRuns s b then s
  else
    let (i, n) := ctlOf b
    let (j, m) := statOf b
    let st := s.reg j m 0 0
    if quiesced s b ∧ errcode ≠ 0 then s.setReg j m 0 0 (setFld (setBit st 1 true) 8 8 errcode)
    else
      let s := s.setReg i n 0 0 (setBit (s.reg i n 0 0) 0 true)
      s.setReg j m 0 0 (setFld (setBit (setBit st 0 false) 1 false) 8 8 0)

/-- No work of a stopped block remains in flight. -/
def setQuiesced (s : State) (b : Block) : State :=
  let (j, m) := statOf b
  if blockRuns s b then s else s.setReg j m 0 0 (setBit (s.reg j m 0 0) 0 true)

/-! ## Held settings -/

/-- A write to a register with held settings: they take effect only in a quiesced block, and any other write that reaches one is refused
for them; settings that are not held change all the same (R260; DEDUCED, log 23). -/
def heldWrite (s : State) (b : Block) (a : RegAt) (off len : Nat) (v : W64) (x : Attr) : State :=
  let s := levelWrite s a x
  let old := s.reg a.d.id a.n a.k a.j
  if mayHold s b then s.setReg a.d.id a.n a.k a.j (newValue s a off len v x)
  else
    let reach : Bool := a.d.fields.any (fun f => f.held && touches a off len x f.lo)
    let s := s.setReg a.d.id a.n a.k a.j (fieldsWritten a.d old v off len x (fun f => !f.held))
    if reach then setRefused s b else s

/-! ## Decoder windows (R261) -/

/-- Region and the reason to refuse a window, 0 for none. -/
def windowError (s : State) (w : Nat) (v : W64) : Nat :=
  let size := fld v 1 21
  let base := fld v 22 22
  let inside (lo hi : Nat) : Bool := lo ≤ base && base + size ≤ hi
  if w = 0 then (if ¬ inside 0 0x1000 then 1 else if base ≠ 0 then 2 else 0)
  else if w ≤ 4 then
    if ¬ inside 0x4000 0x8000 then 1
    else if [1, 2, 3, 4].any (fun u => u != w &&
        (let y := s.reg .meshWin 132 u 0
         let b := fld y 22 22
         bitAt y 0 && decide (b < base + size) && decide (base < b + fld y 1 21))) then 3
    else 0
  else
    let lo := 0x300000 + (w - 5) * 2 ^ 15
    if ¬ inside lo (lo + 2 ^ 15) then 1 else if base ≠ lo then 2 else 0

/-- A write of WINw: EN acts as RUN, WINSTAT holds QUIESCED, REFUSED and ERRCODE. A write that reaches BASE or SIZE of an enabled window is
refused, whatever it writes there (DEDUCED, log 23). -/
def winWrite (s : State) (a : RegAt) (off len : Nat) (v : W64) (x : Attr) : State :=
  let s := levelWrite s a x
  let w := a.k
  let old := s.reg .meshWin 132 w 0
  let st := s.reg .meshWinstat 132 0 0
  let full := newValue s a off len v x
  let stopped : Bool := !bitAt old 0 && bitAt st w
  let s := if ¬ stopped ∧ (touches a off len x 1 ∨ touches a off len x 22) then s.setReg .meshWinstat 132 0 0 (setBit st 13 true) else s
  let kept := if stopped then setBit full 0 (bitAt old 0) else old
  let s := s.setReg .meshWin 132 w 0 kept
  if bitAt full 0 = bitAt old 0 then s
  else
    let st := s.reg .meshWinstat 132 0 0
    if bitAt full 0 then
      let e := windowError s w kept
      if e = 0 then
        (s.setReg .meshWin 132 w 0 (setBit kept 0 true)).setReg .meshWinstat 132 0 0 (setFld (setBit st w false) 16 8 0)
      else s.setReg .meshWinstat 132 0 0 (setFld st 16 8 e)
    else (s.setReg .meshWin 132 w 0 (setBit kept 0 false)).setReg .meshWinstat 132 0 0 (setBit st w true)

end Sys2Proof.Machine
end

