-- ==== Sys2Proof/Machine/LouvreOps.lean ====
section
/-! DEFINITION. Louvre's hardware (chapter 14): P-levels, the rails that follow them over the voltage link (R31-R33, R405-R408),
grants and ceilings (R409-R414), block gating (R424) and the start and reset of cores (R475, R480). -/

namespace Sys2Proof.Machine

/-! ## Regulators -/

/-- A microsecond of the global timestamp (R461). -/
def usec : Nat := 1200

def State.vr (s : State) (r : Nat) : Vr := lookD Vr.off s.power.vrs r
def State.setVr (s : State) (r : Nat) (v : Vr) : State := { s with power := { s.power with vrs := put s.power.vrs r v } }
def State.raise (s : State) (d : Nat) : Raise := lookD Raise.none s.power.raises d
def State.setRaise (s : State) (d : Nat) (r : Raise) : State := { s with power := { s.power with raises := put s.power.raises d r } }

/-- The output a code asks for: 0.250 V and 5 mV a step, in parts of 1,200 of 5 mV (R30 Table 6). -/
def codeOut (code : Nat) : Nat := usec * (code + 50)

/-- The output of an enabled regulator: from its base it moves toward its target at its slew rate, (SLEW + 1) x 5 mV a microsecond. -/
def Vr.out (v : Vr) (now : Nat) : Nat :=
  let goal := codeOut v.code.toNat
  let moved := if v.stuck then 0 else (now - v.begin) * (v.slew.toNat + 1)
  if v.base ≤ goal then min goal (v.base + moved) else max goal (v.base - moved)

/-- The output is still on its way to the target. -/
def Vr.ramping (v : Vr) (now : Nat) : Bool := decide (v.begin ≤ now) && v.out now != codeOut v.code.toNat

/-- VOUT_OK: the output of a regulator that has begun to move is within 10 mV, two code steps, of its target (R31). -/
def Vr.ok (v : Vr) (now : Nat) : Bool :=
  let goal := codeOut v.code.toNat
  v.enabled && !v.stuck && decide (v.begin ≤ now ∧ v.out now ≤ goal + 2 * usec ∧ goal ≤ v.out now + 2 * usec)

def vrOk (s : State) (r : Nat) : Bool := (s.vr r).ok s.now

/-- A new target (R31): from wherever the output stands, after 1 µs, or at once while it still moves (DESIGN CHOICE, log 25). -/
def Vr.target (v : Vr) (now code : Nat) : Vr :=
  { v with code := BitVec.ofNat 8 code, base := v.out now, begin := if v.ramping now then now else now + usec }

/-- The output has reached a target. -/
def Vr.settled (v : Vr) (now code : Nat) : Vr :=
  { v with enabled := true, code := BitVec.ofNat 8 code, base := codeOut code, begin := now, stuck := false }

/-- A regulator takes a new target (R31). -/
def vrTarget (s : State) (r code : Nat) : State :=
  if (s.vr r).code.toNat = code then s else s.setVr r ((s.vr r).target s.now code)

/-! ## Frames -/

/-- Louvre sends frames: supplied, and not stopped by a fatal error. The link runs from the always-on oscillator (R38). -/
def linkOn (s : State) : Bool := s.power.vaon && s.power.pwrgood && !s.power.errFatal

/-- The kind of VR_LINK record that the tries of a frame end in, none where the frame is acknowledged (R29). -/
def frameFate (fails : List LinkFail) : Option Nat :=
  let tries := fails.take 4
  if tries.contains .nakCommand then some 2
  else if tries.length < 4 then none
  else some (if tries.all (· == .silent) then 1 else 0)

/-- A frame to a regulator: whether it was acted on. -/
def sendFrame (s : State) (r cmd : Nat) (fails : List LinkFail) : State × Bool :=
  match frameFate fails with
  | none => (s, true)
  | some k => (s.logErr .notice 8 0 0x46 0 4095 (BitVec.ofNat 64 (r + k * 2 ^ 5 + cmd * 2 ^ 8)), false)

/-- A frame that hardware sends of itself: its tries are free (DESIGN CHOICE, log 106). -/
def hwSend (s : State) (r cmd : Nat) : State × Bool := sendFrame s.useFree r cmd (Config.linkTries s.free)

/-- Such a frame with what follows where it is acted on. -/
def hwFrame (s : State) (r cmd : Nat) (f : State → State) : State :=
  match hwSend s r cmd with
  | (s, true) => f s
  | (s, false) => s

/-- Hardware's SET_VID. -/
def hwSetVid (s : State) (r code : Nat) : State :=
  if (s.vr r).code.toNat = code then s else hwFrame s r 1 (fun s => vrTarget s r code)

/-! ## Levels -/

/-- SET_VID codes of P0 to P15 (R405 Table 2). -/
def levelCode (l : Nat) : Nat := nthD 74 [150, 142, 134, 126, 120, 114, 110, 104, 98, 94, 90, 84, 80, 78, 76, 74] l

def grantLevel (k : Core) : Nat := fld (k.crBase 9) 0 4
def grantWide (k : Core) : Nat := fld (k.crBase 9) 4 4

/-- OLEVEL of an owner (R410). -/
def ownerLevel (s : State) (o : Nat) : Nat := if o < 4095 then s.regF .lvOcap 0 o 0 12 4 else 0

/-- R46 holds a die. -/
def held (s : State) (d : Nat) : Bool := bitAt s.power.dieHold d || s.power.uncHold

/-- The ceiling without the wide one, and the wide one: never faster than LEVEL (R411, R412). -/
def plainCeil (s : State) (k : Core) : Nat := max (grantLevel k) (ownerLevel s k.owner.toNat)
def wideCeil (k : Core) : Nat := max (grantLevel k) (grantWide k)

/-- The ceiling in effect (R411). -/
def ceiling (s : State) (k : Core) : Nat := if k.wide then max (plainCeil s k) (wideCeil k) else plainCeil s k

/-- The target that the rail and trim follow: the wide ceiling leaves the voltage unchanged (R407, R412). -/
def levelTarget (s : State) (c : Nat) : Nat :=
  if held s (dieOf c) then 15 else max (s.regF .lvPreq 0 c 0 0 4) (plainCeil s (s.core c))

/-- The level whose D is in effect (R408, R412). -/
def levelNow (k : Core) : Nat := if k.wide then max k.cur (wideCeil k) else k.cur

/-- The state a core shows in PSTAT; a core not started shows the reset value. -/
def pstatState (k : Core) : Nat :=
  if ¬ k.started then 0
  else match k.run with
    | .running | .halted | .entering _ _ _ => 0
    | .waiting _ => 1
    | .ajar _ => 2
    | .latched _ => 3
    | .closed _ => 4

/-- PSTATc (R408). -/
def pstat (s : State) (c : Nat) : W64 :=
  let k := s.core c
  BitVec.ofNat 64 (levelNow k + ceiling s k * 2 ^ 4 + b2n k.wide * 2 ^ 8 + b2n k.raising * 2 ^ 9 + b2n k.raiseFail * 2 ^ 10
    + pstatState k * 2 ^ 11)

/-- A core counts for its tile's voltage (R406). -/
def counts (k : Core) : Bool :=
  k.started && (match k.run with
    | .latched _ | .closed _ => false
    | _ => true)

/-- A core whose level follows its target now: it does not sleep (R421). -/
def follows (k : Core) : Bool := counts k && (match k.run with | .ajar _ => false | _ => true)

/-- The voltage a core needs, as a code (R406). -/
def coreNeed (k : Core) : Nat := if counts k then levelCode (if k.raising then k.goal else k.cur) else 74

/-- Cores of a die that are not in their reset state. -/
def dieCores (s : State) (d : Nat) : List Nat := (s.cores.map (·.1)).filter (fun c => dieOf c == d)

/-- The voltage a die needs, never below that of P15 (R406). -/
def dieNeed (s : State) (d : Nat) : Nat := (dieCores s d).foldl (fun m c => max m (coreNeed (s.core c))) 74

/-- The voltage a tile needs: that of the fastest level among its counted cores (R406). -/
def tileNeed (s : State) (t : Nat) : Nat := max (coreNeed (s.core (2 * t))) (coreNeed (s.core (2 * t + 1)))

/-- The code at which a die's rail stands while a raise of it is in progress or has failed, and else its target. -/
def railStands (s : State) (d : Nat) : Nat :=
  let r := s.raise d
  if r.busy || r.retry then r.old else (s.vr d).code.toNat

/-- The fastest level whose voltage a die's rail now gives. -/
def railLevel (s : State) (d : Nat) : Nat := ((List.range 16).find? (fun l => decide (levelCode l ≤ railStands s d))).getD 15

/-- The tile regulators of a die follow its rail and their cores (R406, R408): each trims the rail down by 0 to 200 mV, in steps of
5 mV. A tile none of whose cores has been started stands at the P15 voltage and has no entry. -/
def trimDie (s : State) (d : Nat) : State :=
  let trims := (dieCores s d).foldl (fun t c => put t (c / 2) (min 40 (railStands s d - tileNeed s (c / 2)))) s.power.trims
  { s with power := { s.power with trims := trims } }

/-- A core of a die still wants a faster level. -/
def wantsRaise (s : State) (d : Nat) : Bool :=
  (dieCores s d).any (fun c => follows (s.core c) && decide ((s.core c).goal < (s.core c).cur))

/-- A raise of a die succeeds: the tile trims follow, and D of every core that waited is reduced (R33, R408). A core whose own raise
failed before, and that still wants a faster level, keeps its retry. -/
def raiseDone (s : State) (d : Nat) : State :=
  let retry := (s.raise d).retry
  let s := trimDie (s.setRaise d Raise.none) d
  let s := (dieCores s d).foldl (fun s c =>
    let k := s.core c
    if k.raising then s.setCore c { k with cur := k.goal, raising := false, raiseFail := false } else s) s
  s.setRaise d { Raise.none with retry := retry && wantsRaise s d, old := (s.vr d).code.toNat }

/-- The rail of a die is raised as its cores now need: at once where it stands high enough (R33). -/
def startRaise (s : State) (d : Nat) : State :=
  let need := dieNeed s d
  let r := s.raise d
  if need ≤ railStands s d ∧ ¬ r.busy then raiseDone s d
  else if r.busy ∧ r.code = need then s
  else (vrTarget s d need).setRaise d { r with busy := true, code := need, old := railStands s d }

/-- The rail of a die is lowered once nothing on it needs the higher voltage (R33, R408); a raise nothing waits for is abandoned, and
its failures still count until a raise succeeds. -/
def lowerRail (s : State) (d : Nat) : State :=
  if wantsRaise s d ∨ s.power.pkg ≠ .running then s
  else
    let s := s.setRaise d { Raise.none with fails := (s.raise d).fails }
    let need := dieNeed s d
    trimDie (if need < (s.vr d).code.toNat then hwSetVid s d need else s) d

/-- A core moves to a target (R408): at once where the rail gives its voltage, else through a raise of the rail, until which it runs
no faster than the rail allows (DEDUCED, log 107). -/
def moveCore (s : State) (c : Nat) : State :=
  let k := s.core c
  let d := dieOf c
  let t := levelTarget s c
  if levelCode t ≤ railStands s d then
    lowerRail (trimDie (s.setCore c { k with goal := t, cur := t, raising := false,
                                             raiseFail := k.raiseFail && decide (k.cur ≤ t) }) d) d
  else startRaise (s.setCore c { k with goal := t, cur := max k.cur (railLevel s d), raising := true }) d

/-- A core's level follows a target that has changed. -/
def retarget (s : State) (c : Nat) : State :=
  if follows (s.core c) ∧ levelTarget s c ≠ (s.core c).goal ∧ s.power.clocks then moveCore s c else s

/-- Every core of the part, or of a list. -/
def retargetAll (s : State) : State := (s.cores.map (·.1)).foldl retarget s

/-! ## Block gating (R424) -/

/-- The block of a BLKPWR bit. -/
def gatedBlock (bit : Nat) : Option Block :=
  if h : bit < 4 then some (.oec ⟨bit, h⟩)
  else if h : bit - 8 < 8 ∧ 8 ≤ bit then some (.rc ⟨bit - 8, h.1⟩) else none

/-- One BLKPWR bit set: refused for a block that is claimed, or not quiesced (R425). -/
def gateBlock (s : State) (bit : Nat) (x : Attr) : State :=
  match gatedBlock bit with
  | none => s
  | some b =>
    if claimed s b ∧ ¬ attrSec x then refuse s 0xFF 5 false 1 0x01 x.owner.toNat (stopOf b)
    else if ¬ mayHold s b then refuse s 0xFF 5 false 1 0x06 x.owner.toNat (stopOf b)
    else s.setReg .lvBlkpwr 0 0 0 (setBit (s.reg .lvBlkpwr 0 0 0) bit true)

/-- A write of BLKPWR. -/
def blkpwrWriteAt (s : State) (a : RegAt) (off len : Nat) (v : W64) (x : Attr) : State :=
  let s := levelWrite s a x
  let old := s.reg .lvBlkpwr 0 0 0
  let w := newValue s a off len v x
  let s := s.setReg .lvBlkpwr 0 0 0 (old &&& w)
  ((List.range 16).filter (fun i => bitAt w i && !bitAt old i)).foldl (fun s i => gateBlock s i x) s

/-! ## Starting and resetting cores (R475, R480) -/

def startBit (s : State) (c : Nat) : Bool := bitAt (s.reg .lvCorestart 0 (c / 64) 0) (c % 64)

/-- A write of CORESTARTi: a core already started keeps its bit, which has no effect. -/
def corestartWriteAt (s : State) (a : RegAt) (off len : Nat) (v : W64) (x : Attr) : State :=
  (levelWrite s a x).setReg .lvCorestart 0 a.k 0 (newValue s a off len v x)

/-- A tile reset is in progress, and its tile. -/
def tileInReset (s : State) : Option Nat :=
  let v := s.reg .lvTilerst 0 0 0
  if bitAt v 8 then some (fld v 0 7) else none

/-- A core stops: its unretired instructions and vector instructions are discarded, and any saved state (R480 step 1). -/
def Core.halt (k : Core) : Core :=
  { k with started := false, run := .running, out := none, waitLd := none, heldEntry := none, vq := [], saved := false,
           switching := false }

/-- A write of TILERST: GO stops both cores of TILE; the rest of the reset ends with GO reading 0 (DEDUCED, log 26). -/
def tilerstWrite (s : State) (a : RegAt) (off len : Nat) (v : W64) (x : Attr) : State :=
  let s := levelWrite s a x
  if (tileInReset s).isSome then s
  else
    let w := newValue s a off len v x
    let s := s.setReg .lvTilerst 0 0 0 w
    if asserted a off len v x 8 then
      let t := fld w 0 7
      let s := (s.onCore (2 * t) Core.halt).onCore (2 * t + 1) Core.halt
      if s.power.entering = some (2 * t) ∨ s.power.entering = some (2 * t + 1) then
        { s with power := { s.power with entering := none } } else s
    else s

/-- A core whose START bit has been written starts in the state of R476, on the wake clock; its level follows its target. -/
def startCore (s : State) (c : Nat) : State :=
  let k := s.core c
  if ¬ startBit s c ∨ k.started ∨ tileInReset s = some (c / 2) ∨ ¬ s.power.clocks then s
  else
    moveCore (s.setCore c { Core.reset with started := true, cur := k.cur, goal := k.cur, activity := k.activity,
                                            ownTime := k.ownTime }) c

/-! ## The secure watchdog (R342) -/

/-- PERIOD is loaded. -/
def swdLoad (s : State) : State :=
  let v := s.reg .ownSwdctl 0 0 0
  s.setReg .ownSwdctl 0 0 0 (setFld v 32 16 (fld v 16 16))

end Sys2Proof.Machine
end

