-- ==== Sys2Proof/Machine/McOps.lean ====
section
/-! DEFINITION. Memory controllers and vault ports as blocks: the checks of RUN (R275-R279), device marks (R296), line remapping
(R266, R315, R316) and scrubbing (R317, R318). -/

namespace Sys2Proof.Machine

/-! ## The map of MC[0] -/

def mapMask (s : State) (k : Nat) : Nat := s.regF .mcMap 0 k 0 0 36
def mapF (s : State) (lo w : Nat) : Nat := s.regF .mcMapcfg 0 0 0 lo w

/-- The masks in use (R277). -/
def masksUsed (s : State) : List Nat :=
  (List.range 13).filter (fun k => (k < 4 && k < mapF s 6 3) || (4 ≤ k && k < 10) || (10 ≤ k && k < 10 + mapF s 9 2))

/-- A vector over GF(2) reduced by independent ones. -/
def reduceBy (basis : List Nat) (v : Nat) : Nat := basis.foldl (fun v b => min v (Nat.xor v b)) v

/-- The first mask that is a combination of lower ones, by number; 0xF where none is (R278). -/
def firstDependent : List (Nat × Nat) → List Nat → Nat
  | [], _ => 0xF
  | (k, v) :: t, basis =>
    let r := reduceBy basis v
    if r = 0 then k else firstDependent t (basis ++ [r])

/-- MAPCHK.DEP: the masks restricted to the bits that CRMASK leaves out. -/
def mapDep (s : State) : Nat :=
  let cr := s.regF .mcCrmask 0 0 0 0 36
  let n := mapF s 0 6
  firstDependent ((masksUsed s).map (fun k => (k, Nat.land (mapMask s k) (2 ^ n - 1 - Nat.land cr (2 ^ n - 1))))) []

/-- A channel belongs to a set (R269 Table 2). -/
def inSet (set n : Nat) : Bool :=
  match set with
  | 0 => true
  | 1 => n % 2 == 0
  | 2 => n % 2 == 1
  | k => k ≤ 6 && n % 4 == k - 3

/-- Fields of a DIMMCFG: X8, D32, R2, H. -/
def dimmFields (s : State) (n : Nat) : Nat := s.regF .mcDimmcfg n 0 0 0 5

def bitCount (x : Nat) : Nat := ((List.range 64).filter (fun i => x.testBit i)).length

def log2Size (set : Nat) : Nat := if set = 0 then 4 else if set ≤ 2 then 3 else 2

/-- The counts of R279, and no mask outside use. -/
def countsAgree (s : State) : Bool :=
  let d := s.reg .mcDimmcfg 0 0 0
  let c := if bitAt d 0 then 6 else 7
  let rows := if bitAt d 1 then 17 else 16
  let cr := bitCount (s.regF .mcCrmask 0 0 0 0 36)
  let rk := mapF s 9 2
  let ch := mapF s 6 3
  decide (cr = c + rows) && decide (rk = b2n (bitAt d 2) + min 2 (fld d 3 2)) && decide (ch = log2Size (mapF s 12 4))
    && decide (mapF s 0 6 = ch + 6 + rk + cr)
    && (List.range 13).all (fun k => (masksUsed s).contains k || mapMask s k == 0)

/-- MC[0] in map-only mode (R276). -/
def mapOnly (s : State) (n : Nat) : Bool := n == 0 && !inSet (mapF s 12 4) 0

/-- The lowest ERRCODE that applies to a write of RUN = 1 (R275 Table 3), 0 for none. -/
def mcError (s : State) (n : Nat) : Nat :=
  let set := mapF s 12 4
  let nb := mapF s 0 6
  let high (m : Nat) : Bool := m / 2 ^ nb != 0
  let dimm := s.reg .mcDimmcfg n 0 0
  let e1 : Bool := n == 0 && mapDep s != 0xF
  let e2 : Bool := n == 0 && ((List.range 13).any (fun k => high (mapMask s k)) || high (s.regF .mcCrmask 0 0 0 0 36))
  let e3 : Bool := n == 0 && !countsAgree s
  let e4 : Bool := n == 0 && (6 < set || mapF s 6 3 != log2Size set)
  let e5 : Bool := !mapOnly s n && (!inSet set n || !bitAt dimm 5 || bitAt (s.reg .mcHealth n 0 0) 0)
  let e6 : Bool := dimmFields s n != dimmFields s 0 || fld dimm 3 2 == 3
  let e7 : Bool := n != 0 && !bitAt (s.reg .mcCtl 0 0 0) 0
  let e8 : Bool := n == 0 && (List.range 15).any (fun i => bitAt (s.reg .mcCtl (i + 1) 0 0) 0)
  let w := s.reg .meshWin 132 0 0
  let e9 : Bool := n == 0 && bitAt w 0 && decide (fld w 1 21 * 2 ^ 30 ≠ 2 ^ (nb + 6))
  (([(1, e1), (2, e2), (3, e3), (4, e4), (5, e5), (6, e6), (7, e7), (8, e8), (9, e9)].find? (·.2)).map (·.1)).getD 0

/-- The map that MC[0] publishes (R277). -/
def mapNow (s : State) : PubMap :=
  let d := s.reg .mcDimmcfg 0 0 0
  { n := mapF s 0 6, chbits := mapF s 6 3, rkbits := mapF s 9 2, set := mapF s 12 4, x8 := bitAt d 0, r2 := bitAt d 2,
    rows32 := bitAt d 1, masks := (List.range 13).map (fun k => BitVec.ofNat 36 (mapMask s k)),
    crmask := BitVec.ofNat 36 (s.regF .mcCrmask 0 0 0 0 36) }

/-! ## The fill (R308) -/

/-- Lines whose write of the fill failed the write CRC four times: logged, and left in stored-poison form (R308). -/
def fillFailed (s : State) (mine : Nat → Bool) (fails : List (BitVec 46)) : State :=
  fails.foldl (fun s l =>
    let line := l.toNat
    if inWindow s 0 (64 * line) ∧ mine line then
      (s.setNote line { LineNote.fresh with poison := true }).logErr .deferred 5 (chanOf s line) 0x25 (64 * line) (pageOwner s line)
        (dramDetail s line 0xF 0x1F false false)
    else s) s

/-! ## Scrub laps -/

/-- A lap starts where EN and RUN are 1 and none is in progress (R318). -/
def lapBegin (s : State) (b : Block) : State :=
  match b with
  | .mc n =>
    if blockRuns s b ∧ bitAt (s.reg .mcScrubcfg n 0 0) 0 ∧ (s.mc n).lapStart = 0 then
      s.setMc n { s.mc n with lapStart := max 1 s.now }
    else s
  | .vlt n =>
    let v := lookD ⟨0, 0⟩ s.vlts n
    if blockRuns s b ∧ bitAt (s.reg .vltScrubcfg n 0 0) 0 ∧ v.lapStart = 0 then
      { s with vlts := put s.vlts n { v with lapStart := max 1 s.now } }
    else s
  | _ => s

/-- Milliseconds since a lap began. -/
def lapMs (s : State) (start : Nat) : Nat := min ((s.now - start) / 1200000) (2 ^ 32 - 1)

/-- A lap ends (R318). -/
def lapEnd (s : State) (b : Block) : State :=
  match b with
  | .mc n =>
    let mc := s.mc n
    let s := s.setReg .mcScrubstat n 0 0 (BitVec.ofNat 64 (lapMs s mc.lapStart + 2 ^ 33))
    lapBegin (s.setMc n { mc with scrubA := 0, scrubB := 0, lapStart := 0 }) b
  | .vlt n =>
    let v := lookD ⟨0, 0⟩ s.vlts n
    let s := s.setReg .vltScrubstat n 0 0 (BitVec.ofNat 64 (lapMs s v.lapStart + 2 ^ 33))
    lapBegin { s with vlts := put s.vlts n ⟨0, 0⟩ } b
  | _ => s

/-! ## RUN of a controller -/

/-- RUN becomes 1 in a controller: error windows start (R299), and MC[0] publishes the map (R276, R277). -/
def mcRun (s : State) (n : Nat) (h : n < 16) : State :=
  let b : Block := .mc ⟨n, h⟩
  let s := if n = 0 then s.setReg .mcMapchk 0 0 0 (BitVec.ofNat 64 (mapDep s)) else s
  let was := blockRuns s b
  let early := !quiesced s b
  let s := setRun s b (mcError s n)
  if was ∨ ¬ blockRuns s b then s
  else
    let s := s.setMc n { s.mc n with ueCount := 0, devCount := [] }
    let s := if n = 0 ∧ ¬ early then { s with map := some (mapNow s) } else s
    lapBegin s b

/-! ## Device marks (R296) -/

/-- A write of BADDEVs: a larger device number is ignored; a mark stays. -/
def baddevWriteAt (s : State) (a : RegAt) (off len : Nat) (v : W64) (x : Attr) : State :=
  let s := levelWrite s a x
  let top := if bitAt (s.reg .mcDimmcfg a.n 0 0) 0 then 4 else 9
  let w := mergeBytes (s.reg .mcBaddev a.n a.k 0) (v <<< (8 * off)) (enables off len)
  s.setReg .mcBaddev a.n a.k 0
    (fieldsWritten a.d (s.reg .mcBaddev a.n a.k 0) v off len x (fun f => f.width == 1 || fld w f.lo 4 ≤ top))

/-! ## Remapping -/

/-- Whether a write that sets V of a controller's remap entry is refused (R316). -/
def mcRemapRefused (s : State) (n k : Nat) (v : W64) : Bool :=
  match s.map with
  | none => true
  | some m =>
    let line := fld v 1 36
    let sp := fld v 37 18
    let spare := spareBase m + sp
    decide (spareBase m ≤ line) || (dramAt m line).chan != n || decide (setSize m.set * 2 ^ 14 ≤ sp)
      || (dramAt m spare).chan != n
      || (List.range 16).any (fun j => j != k && bitAt (s.reg .mcRemap n j 0) 0 && s.regF .mcRemap n j 0 37 18 == sp)

/-- Whether ADDR belongs to another port than the entry's (R266). -/
def vltRemapRefused (n : Nat) (v : W64) : Bool :=
  let line := 0xE000000000000 / 64 + fld v 6 22
  !isVault line || sliceOf line != n

/-- V, ADDR and SPARE of a controller's remap entry. -/
def mcRemapKeep : W64 := 0x7FFFFFFFFFFFFF

/-- A write to a controller's remap entry: refused where it sets V wrongly or would change an entry with V = 1 (R316; DEDUCED, log 24). -/
def mcRemapWrite (s : State) (a : RegAt) (off len : Nat) (v : W64) (x : Attr) : State :=
  let s := levelWrite s a x
  let old := s.reg a.d.id a.n a.k 0
  let full := newValue s a off len v x
  let sets := asserted a off len v x 0
  let refuse_ : Bool := if bitAt old 0 then sets || (full &&& mcRemapKeep) != (old &&& mcRemapKeep) else sets && mcRemapRefused s a.n a.k full
  s.setReg a.d.id a.n a.k 0 (if refuse_ then setBit old 57 true else full)

/-- A write to a vault port's remap entry: refused once V is 1, and where ADDR belongs to another port (R266). -/
def vltRemapWrite (s : State) (a : RegAt) (off len : Nat) (v : W64) (x : Attr) : State :=
  let s := levelWrite s a x
  let old := s.reg a.d.id a.n a.k 0
  let full := newValue s a off len v x
  let reach := touches a off len x 0 || touches a off len x 6
  let refuse_ : Bool := reach && (bitAt old 0 || vltRemapRefused a.n full)
  s.setReg a.d.id a.n a.k 0 (if refuse_ then setBit old 30 true else full)

/-! ## The lines of a channel or port in turn -/

/-- Reduced rows of a linear system over GF(2): pivot bit, mask, right side. -/
def addRow (rows : List (Nat × Nat × Bool)) (mask : Nat) (rhs : Bool) : List (Nat × Nat × Bool) :=
  let (m, r) := rows.foldl (fun (p : Nat × Bool) q =>
    if p.1.testBit q.1 then (Nat.xor p.1 q.2.1, p.2 != q.2.2) else p) (mask, rhs)
  match (List.range 36).find? (fun i => m.testBit i) with
  | none => rows
  | some i => rows.map (fun q => if q.2.1.testBit i then (q.1, Nat.xor q.2.1 m, q.2.2 != r) else q) ++ [(i, m, r)]

/-- Solution number `p` of a reduced system in `n` bits, by its free bits. -/
def solution (rows : List (Nat × Nat × Bool)) (n p : Nat) : Nat :=
  let free := (List.range n).filter (fun i => !rows.any (fun q => q.1 == i))
  let l0 := ((free.mapIdx (fun j i => if p.testBit j then 2 ^ i else 0))).sum
  rows.foldl (fun l q => if (bitCount (Nat.land q.2.1 l0) % 2 == 1) != q.2.2 then l + 2 ^ q.1 else l) l0

/-- Line `p` of a subchannel of a channel (R317). -/
def channelLine (m : PubMap) (n sub p : Nat) : Nat :=
  let c := if m.set = 0 then n else if m.set ≤ 2 then n / 2 else n / 4
  let rows := (List.range m.chbits).foldl (fun r i => addRow r (nthD 0 m.masks i).toNat (c.testBit i)) []
  solution (addRow rows (nthD 0 m.masks 4).toNat (sub == 1)) m.n p

/-- Lines of a subchannel. -/
def channelLines (m : PubMap) : Nat := 2 ^ (m.n - m.chbits - 1)

/-- The vault line of a port at or after block `b` of 32 lines, with its block. -/
def portLine (n : Nat) : Nat → Nat → Option (Nat × Nat)
  | 0, _ => none
  | fuel + 1, b =>
    if 98304 ≤ b then none
    else
      match (List.range 32).find? (fun i => sliceOf (0xE000000000000 / 64 + 32 * b + i) == n) with
      | some i => some (b, 0xE000000000000 / 64 + 32 * b + i)
      | none => portLine n fuel (b + 1)

/-! ## Scrub reads (R317) -/

/-- A scrub read of a DRAM line: lines that a remap entry replaces and spare lines not in use are skipped; an uncorrectable line
goes to stored-poison form unless a newer write is queued. -/
def scrubDram (s : State) (m : PubMap) (n line : Nat) : State :=
  let entries := (List.range 16).map (fun j => s.reg .mcRemap n j 0)
  let replaced := entries.any (fun e => bitAt e 0 && bitAt e 55 && fld e 1 36 == line)
  let inUse := entries.any (fun e => bitAt e 0 && spareBase m + fld e 37 18 == line)
  if replaced ∨ (spareBase m ≤ line ∧ ¬ inUse) then s
  else
    let was := (s.note line).poison
    let (s, (d, bad)) := dramRead s.asService n line true
    let s := pmBump s (mcStop n) 4 1 s.qos
    if (s.mc n).wq.any (fun e => e.line == line) then s
    else if bad ∧ ¬ was then s.setNote line { s.note line with poison := true, syms := [] }
    else if ¬ bad ∧ d ≠ readStored s.mem line then
      ({ s with mem := writeStored s.mem line d }).setNote line { s.note line with syms := [] }
    else s

/-- Scrubbing runs: EN, RUN, and the package awake. -/
def scrubs (s : State) (b : Block) : Bool :=
  blockRuns s b && s.power.clocks && decide (s.power.pkg = .running) &&
    match b with
    | .mc n => bitAt (s.reg .mcScrubcfg n 0 0) 0 && !mapOnly s n && s.power.pll
    | .vlt n => bitAt (s.reg .vltScrubcfg n 0 0) 0
    | _ => false

/-- The next scrub read of a controller's subchannel. -/
def scrubMc (s : State) (n : Nat) (h : n < 16) (sub : Bool) : State :=
  match s.map with
  | none => s
  | some m =>
    let mc := s.mc n
    let p := if sub then mc.scrubB else mc.scrubA
    if channelLines m ≤ p then s
    else
      let s := s.setMc n (if sub then { mc with scrubB := p + 1 } else { mc with scrubA := p + 1 })
      let s := scrubDram s m n (channelLine m n (b2n sub) p)
      let mc := s.mc n
      if channelLines m ≤ mc.scrubA ∧ channelLines m ≤ mc.scrubB then lapEnd s (.mc ⟨n, h⟩) else s

/-- The next scrub read of a vault port; the lap ends with the read of its last line (R318). -/
def scrubVlt (s : State) (n : Nat) (h : n < 96) : State :=
  let v := lookD ⟨0, 0⟩ s.vlts n
  match portLine n 98304 v.scrub with
  | none => lapEnd s (.vlt ⟨n, h⟩)
  | some (b, line) =>
    let s := vaultCheck { s with vlts := put s.vlts n { v with scrub := b + 1 } } line
    if (portLine n 98304 (b + 1)).isNone then lapEnd s (.vlt ⟨n, h⟩) else s

end Sys2Proof.Machine
end

