-- ==== Sys2Proof/Machine/Mesh.lean ====
section
/-! DEFINITION. Mesh links (R256-R258), the mesh clock (R262), bandwidth regulators (R286-R288) and the error-ring registers (R310,
R312). -/

namespace Sys2Proof.Machine

/-! ## Links -/

/-- Stop `n` has a link from direction `d`: 0 north, 1 east, 2 south, 3 west (R249). -/
def hasLink (n d : Nat) : Bool :=
  if n < 96 then
    match d with
    | 0 | 2 => true
    | 1 => n % 12 != 11 || (1 ≤ n / 12 && n / 12 ≤ 6)
    | _ => n % 12 != 0 || (1 ≤ n / 12 && n / 12 ≤ 6)
  else if n < 108 then d == 2
  else if n < 120 then d == 0
  else if n < 126 then d == 1
  else n < 132 && d == 3

/-- A die crossing: x5 to x6 on a row, y3 to y4 on a column (R250). -/
def isCrossing (n d : Nat) : Bool :=
  decide (n < 96) &&
    match d with
    | 0 => n / 12 == 4
    | 1 => n % 12 == 5
    | 2 => n / 12 == 3
    | _ => n % 12 == 6

/-- LINKSTAT as stored, with its two fixed bits (R258). -/
def linkstat (s : State) (n d : Nat) : W64 :=
  setBit (setBit (s.reg .meshLinkstat n d 0) 28 (isCrossing n d)) 30 (!hasLink n d)

def linkstatRead (s : State) (a : RegAt) (off len : Nat) (x : Attr) : State × W64 :=
  let v := openBits a.d (linkstat s a.n a.k) x
  ((plainRead s a off len x).1, sliceBytes v off len)

def State.link (s : State) (i : Nat) : Link := lookD ⟨0, []⟩ s.links i

/-- A lane is charged an error; at THRESH it is retired while its group has a spare. -/
def chargeLane (s : State) (n d group lane : Nat) : State :=
  let i := 4 * n + d
  let l := s.link i
  let k := lookD 0 l.errs (64 * group + lane) + 1
  let th := s.regF .meshLanethr 132 0 0 0 16
  let spares := s.regF .meshLinkstat n d 0 (16 + 4 * group) 4
  if th ≠ 0 ∧ th ≤ k ∧ spares < 4 then
    let s := { s with links := put s.links i { l with errs := del l.errs (64 * group + lane) } }
    let s := s.setRegF .meshLinkstat n d 0 (16 + 4 * group) 4 (spares + 1)
    s.logErr .notice 4 i 0x18 0 4095 (BitVec.ofNat 64 (group + lane * 4 + (spares + 1) * 256))
  else { s with links := put s.links i { l with errs := put l.errs (64 * group + lane) k } }

/-- REPLAY_REQUEST: a flit fails on the link that `stop` receives from `dir`. The lanes that carried a differing bit on a die
crossing are charged; `again` says that it is the flit that failed last on the link; the 16th failed send in a row is fatal (R257, R258). -/
def execReplayRequest (stop : Fin 132) (dir : Fin 4) (again : Bool) (lanes : List (Fin 3 × Fin 64)) (s : State) : Result :=
  done (
    let v := linkstat s stop dir
    if ¬ s.power.clocks ∨ bitAt v 29 ∨ bitAt v 30 then s
    else
      let i := 4 * stop.val + dir.val
      let s := s.bump .meshLinkstat stop dir 0 0 16 1
      let l := s.link i
      let sends := if again then l.sends + 1 else 1
      let s := { s with links := put s.links i { l with sends := sends } }
      let s := if isCrossing stop dir then lanes.foldl (fun s p => chargeLane s stop dir p.1 p.2) s else s
      if sends = 16 then
        (s.setRegF .meshLinkstat stop dir 0 29 1 1).fatal 0x19 true 4 i 0 0
      else s)

/-- LANETHR_WINDOW_END: per-lane error counts start again (R258). -/
def execLanethrWindowEnd (s : State) : Result :=
  doneRun s { s with links := s.links.map (fun (p : Nat × Link) => (p.1, { p.2 with errs := [] })) }

/-! ## Mesh clock -/

/-- A write of CLKCFG.SLOW: the divide is used once the mesh runs from the root PLL (R40, R262). -/
def clkcfgWrite (s : State) (a : RegAt) (off len : Nat) (v : W64) (x : Attr) : State :=
  let s := plainWrite s a off len v x
  { s with power := { s.power with meshSlow := s.power.meshPll && bitAt (s.reg .meshClkcfg 132 0 0) 0 } }

/-! ## Regulators -/

/-- A write of MEMREG: EN becoming 1 fills the bucket, the count is cut to the new depth, and with EN 0 nothing is held (R287, R288). -/
def memregWrite (s : State) (a : RegAt) (off len : Nat) (v : W64) (x : Attr) : State :=
  let was := bitAt (s.reg .meshMemreg a.n 0 0) 0
  let s := plainWrite s a off len v x
  let w := s.reg .meshMemreg a.n 0 0
  let cap := fld w 16 12 * 256
  let tok := s.regF .meshMemtok a.n 0 0 0 20
  let s := s.setRegF .meshMemtok a.n 0 0 0 20 (if bitAt w 0 ∧ ¬ was then cap else min tok cap)
  if bitAt w 0 then s else releaseHeld s a.n

/-! ## Window counters (R472) -/

/-- A write of WINCFG: a stop that does not count holds no counts, so that its next window starts from zero. -/
def wincfgWrite (s : State) (a : RegAt) (off len : Nat) (v : W64) (x : Attr) : State :=
  let s := plainWrite s a off len v x
  if bitAt (s.reg .pmWincfg a.n 0 0) 0 then s else { s with pm := del s.pm a.n }

/-! ## Error rings -/

/-- The ring whose registers stand in a block: MC[n], or MESH[132]. -/
def ringAt (a : RegAt) : Nat := if a.d.base = 0xF000000000000 then a.n else 16

/-- A write of ELOGPTR: RD, with COUNT = (WR - RD) mod 512. -/
def elogptrWrite (s : State) (a : RegAt) (off len : Nat) (v : W64) (x : Attr) : State :=
  let s := plainWrite s a off len v x
  if touches a off len x 16 then
    let p := s.reg a.d.id a.n 0 0
    s.setReg a.d.id a.n 0 0 (setFld p 32 10 ((fld p 0 9 + 512 - fld p 16 9) % 512))
  else s

/-- A word of a record as the world of a reader sees it (R312). -/
def recordWord (r : W64 × W64 × W64 × W64) (k : Nat) (secure : Bool) : W64 :=
  let o := fld r.2.1 52 12
  let w1 := if secure then r.2.1 else if o = 1 then setFld r.2.1 0 52 0 else if 2 ≤ o ∧ o ≤ 4094 then setFld r.2.1 0 12 0 else r.2.1
  let w3 := if ¬ secure ∧ 1 ≤ o ∧ o ≤ 4094 then 0 else r.2.2.2
  match k with
  | 0 => r.1
  | 1 => w1
  | 2 => r.2.2.1
  | _ => w3

/-- A read of ELOGDk: that of ELOGD0 takes the snapshot. -/
def elogdRead (s : State) (a : RegAt) (off len : Nat) (x : Attr) : State × W64 :=
  if attrLevel x < a.d.level then (deny s a.d a.n, 0)
  else
    let r := ringAt a
    let ring := lookD ErrRing.reset s.rings r
    let (i, n) := ringSel r
    let ring := if a.k = 0 then { ring with snap := lookD (0, 0, 0, 0) ring.recs (s.regF i n 0 0 0 9) } else ring
    ({ s with rings := put s.rings r ring }, sliceBytes (recordWord ring.snap a.k (attrSec x)) off len)

end Sys2Proof.Machine
end

