-- ==== Sys2Proof/Machine/Deflate.lean ====
section
/-! DEFINITION. DEFLATE decoding (RFC 1951) and the container formats of R380-R384: zlib (RFC 1950), gzip (RFC 1952), Twill and
the Twill legacy frame. -/

namespace Sys2Proof.Machine

/-! ## Bits -/

/-- Bytes as bits, lowest first. -/
def toBits (l : List Byte) : List Bool := (l.map (fun b => bitList b 8)).flatten

/-- The number a list of bits spells, lowest first. -/
def bitsNat : List Bool → Nat
  | [] => 0
  | b :: t => b2n b + 2 * bitsNat t

/-- Bits packed into bytes, the last filled with zeros. -/
def packBits : Nat → List Bool → List Byte
  | 0, _ => []
  | _, [] => []
  | n + 1, b => BitVec.ofNat 8 (bitsNat (b.take 8)) :: packBits n (b.drop 8)

def toBytes (b : List Bool) : List Byte := packBits (b.length / 8 + 1) b

/-! ## Decoder state -/

/-- Completion statuses of Table 6. -/
def stLimit : Nat := 1
def stBadDesc : Nat := 2
def stBadHdr : Nat := 3
def stBadData : Nat := 4
def stTruncated : Nat := 5
def stChecksum : Nat := 6
def stTrailing : Nat := 7
def stXlate : Nat := 8
def stUnmapped : Nat := 9
def stOwnership : Nat := 10
def stPoison : Nat := 11
def stNoLane : Nat := 12

/-- A decoder: bits to come, output newest first, its length, where the present stream's output starts, and the limit. -/
structure Inf where
  bits : List Bool
  out : List Byte
  n : Nat
  start : Nat
  lim : Nat
deriving DecidableEq, Repr

/-- A decoding step: the value and the decoder, or a status and the decoder as far as it went. -/
abbrev InfR (α : Type) := Except (Nat × Inf) (α × Inf)

/-- `k` bits as a number. -/
def Inf.need (x : Inf) (k : Nat) : InfR Nat :=
  if x.bits.length < k then .error (stTruncated, { x with bits := [] })
  else .ok (bitsNat (x.bits.take k), { x with bits := x.bits.drop k })

/-- One byte of output; past the limit decoding stops. -/
def Inf.emit (x : Inf) (b : Byte) : InfR Unit :=
  if x.lim ≤ x.n then .error (stLimit, x) else .ok ((), { x with out := b :: x.out, n := x.n + 1 })

/-- A match of `len` bytes at a distance. -/
def Inf.copy : Nat → Nat → Inf → InfR Unit
  | 0, _, x => .ok ((), x)
  | len + 1, dist, x =>
    match x.emit (nthD 0 x.out (dist - 1)) with
    | .error e => .error e
    | .ok (_, x) => Inf.copy len dist x

/-- `k` bytes from a byte boundary. -/
def Inf.bytes (x : Inf) (k : Nat) : InfR (List Byte) :=
  if x.bits.length < 8 * k then .error (stTruncated, { x with bits := [] })
  else .ok (toBytes (x.bits.take (8 * k)) |>.take k, { x with bits := x.bits.drop (8 * k) })

/-! ## Huffman codes -/

/-- A canonical code: numbers of codes of lengths 1 to 15, and the symbols in code order. -/
structure Huff where
  counts : List Nat
  syms : List Nat
deriving DecidableEq, Repr

/-- The code of a list of lengths; none where it is over-subscribed, or incomplete with more than one code. -/
def huffOf (lens : List Nat) : Option Huff :=
  let counts := (List.range 15).map (fun i => (lens.filter (· == i + 1)).length)
  let syms := ((List.range 15).map (fun i => (List.range lens.length).filter (fun s => nthD 0 lens s == i + 1))).flatten
  let used := ((List.range 15).map (fun i => nthD 0 counts i * 2 ^ (14 - i))).sum
  if 2 ^ 15 < used then none
  else if used < 2 ^ 15 ∧ 1 < syms.length then none
  else some ⟨counts, syms⟩

/-- Decoding one symbol, length by length. -/
def huffGo (syms : List Nat) : List Nat → Nat → Nat → Nat → Inf → InfR Nat
  | [], _, _, _, x => .error (stBadData, x)
  | c :: cs, code, first, index, x =>
    match x.bits with
    | [] => .error (stTruncated, x)
    | b :: bs =>
      let x := { x with bits := bs }
      let code := code + b2n b
      if code < first + c then .ok (nthD 0 syms (index + (code - first)), x)
      else huffGo syms cs (2 * code) (2 * (first + c)) (index + c) x

def Inf.sym (x : Inf) (h : Huff) : InfR Nat := huffGo h.syms h.counts 0 0 0 x

/-- Length codes 257 to 285 and distance codes: base and extra bits. -/
def lenBase : List (Nat × Nat) :=
  [(3, 0), (4, 0), (5, 0), (6, 0), (7, 0), (8, 0), (9, 0), (10, 0), (11, 1), (13, 1), (15, 1), (17, 1), (19, 2), (23, 2), (27, 2),
   (31, 2), (35, 3), (43, 3), (51, 3), (59, 3), (67, 4), (83, 4), (99, 4), (115, 4), (131, 5), (163, 5), (195, 5), (227, 5),
   (258, 0)]

def distBase : List (Nat × Nat) :=
  [(1, 0), (2, 0), (3, 0), (4, 0), (5, 1), (7, 1), (9, 2), (13, 2), (17, 3), (25, 3), (33, 4), (49, 4), (65, 5), (97, 5), (129, 6),
   (193, 6), (257, 7), (385, 7), (513, 8), (769, 8), (1025, 9), (1537, 9), (2049, 10), (3073, 10), (4097, 11), (6145, 11),
   (8193, 12), (12289, 12), (16385, 13), (24577, 13)]

/-- A code value: base plus extra bits. -/
def Inf.based (x : Inf) (t : List (Nat × Nat)) (i : Nat) : InfR Nat :=
  match t[i]? with
  | none => .error (stBadData, x)
  | some (b, e) =>
    match x.need e with
    | .error f => .error f
    | .ok (v, x) => .ok (b + v, x)

/-- Symbols of a block up to its end-of-block code; `fuel` bounds their number. -/
def infCodes (lit dist : Huff) : Nat → Inf → InfR Unit
  | 0, x => .error (stTruncated, x)
  | fuel + 1, x =>
    match x.sym lit with
    | .error e => .error e
    | .ok (s, x) =>
      if s < 256 then
        match x.emit (BitVec.ofNat 8 s) with
        | .error e => .error e
        | .ok (_, x) => infCodes lit dist fuel x
      else if s = 256 then .ok ((), x)
      else
        match x.based lenBase (s - 257) with
        | .error e => .error e
        | .ok (len, x) =>
          match x.sym dist with
          | .error e => .error e
          | .ok (ds, x) =>
            match x.based distBase ds with
            | .error e => .error e
            | .ok (d, x) =>
              if x.n - x.start < d then .error (stBadData, x)
              else
                match x.copy len d with
                | .error e => .error e
                | .ok (_, x) => infCodes lit dist fuel x

/-- Code lengths of a dynamic block (RFC 1951 3.2.7); `fuel` bounds the codes read. -/
def infLens (h : Huff) (total : Nat) : Nat → List Nat → Inf → InfR (List Nat)
  | 0, _, x => .error (stBadData, x)
  | fuel + 1, acc, x =>
    if total ≤ acc.length then (if acc.length = total then .ok (acc, x) else .error (stBadData, x))
    else
      match x.sym h with
      | .error e => .error e
      | .ok (s, x) =>
        if s < 16 then infLens h total fuel (acc ++ [s]) x
        else
          let (bits, base, v) : Nat × Nat × Option Nat :=
            if s = 16 then (2, 3, acc.getLast?) else if s = 17 then (3, 3, some 0) else (7, 11, some 0)
          match v, x.need bits with
          | none, _ => .error (stBadData, x)
          | _, .error e => .error e
          | some v, .ok (r, x) => infLens h total fuel (acc ++ copies (base + r) v) x

/-- The order of code-length code lengths. -/
def lensOrder : List Nat := [16, 17, 18, 0, 8, 7, 9, 6, 10, 5, 11, 4, 12, 3, 13, 2, 14, 1, 15]

/-- `k` three-bit lengths. -/
def infThrees : Nat → List Nat → Inf → InfR (List Nat)
  | 0, acc, x => .ok (acc, x)
  | k + 1, acc, x =>
    match x.need 3 with
    | .error e => .error e
    | .ok (v, x) => infThrees k (acc ++ [v]) x

/-- The codes of a dynamic block: up to 32 distance codes, of which the last two stand for no distance (RFC 1951 3.2.6, 3.2.7). -/
def infTrees (x : Inf) : InfR (Huff × Huff) :=
  match x.need 14 with
  | .error e => .error e
  | .ok (v, x) =>
    let nlit := v % 32 + 257
    let ndist := v / 32 % 32 + 1
    let ncode := v / 1024 + 4
    if 286 < nlit then .error (stBadData, x)
    else
      match infThrees ncode [] x with
      | .error e => .error e
      | .ok (l, x) =>
        let cl := (List.range 19).map (fun i => match (List.range 19).find? (fun j => nthD 0 lensOrder j == i) with
          | some j => nthD 0 l j
          | none => 0)
        match huffOf cl with
        | none => .error (stBadData, x)
        | some h =>
          match infLens h (nlit + ndist) 400 [] x with
          | .error e => .error e
          | .ok (lens, x) =>
            match huffOf (lens.take nlit), huffOf (lens.drop nlit) with
            | some a, some b => if nthD 0 lens 256 = 0 then .error (stBadData, x) else .ok ((a, b), x)
            | _, _ => .error (stBadData, x)

/-- The fixed codes. -/
def fixedLit : Huff := (huffOf (copies 144 8 ++ copies 112 9 ++ copies 24 7 ++ copies 8 8)).getD ⟨[], []⟩
def fixedDist : Huff := (huffOf (copies 32 5)).getD ⟨[], []⟩

/-- Stored bytes. -/
def infStored : List Byte → Inf → InfR Unit
  | [], x => .ok ((), x)
  | b :: t, x =>
    match x.emit b with
    | .error e => .error e
    | .ok (_, x) => infStored t x

/-- One block: whether it was the last. -/
def infBlock (x : Inf) : InfR Bool :=
  match x.need 3 with
  | .error e => .error e
  | .ok (v, x) =>
    let fin := v % 2 == 1
    let body : InfR Unit :=
      match v / 2 with
      | 0 =>
        let x := { x with bits := x.bits.drop (x.bits.length % 8) }
        match x.need 32 with
        | .error e => .error e
        | .ok (w, x) =>
          if w % 65536 + w / 65536 ≠ 65535 then .error (stBadData, x)
          else
            let k := min (w % 65536) (x.bits.length / 8)
            match infStored ((toBytes (x.bits.take (8 * k))).take k) { x with bits := x.bits.drop (8 * k) } with
            | .error (st, y) => .error (st, { y with bits := x.bits.drop (8 * (y.n - x.n)) })
            | .ok (_, y) => if k < w % 65536 then .error (stTruncated, { y with bits := [] }) else .ok ((), y)
      | 1 => infCodes fixedLit fixedDist (x.bits.length + 1) x
      | 2 =>
        match infTrees x with
        | .error e => .error e
        | .ok ((a, b), x) => infCodes a b (x.bits.length + 1) x
      | _ => .error (stBadData, x)
    match body with
    | .error e => .error e
    | .ok (_, x) => .ok (fin, x)

/-- A raw DEFLATE stream, up to the byte boundary after its last block; `fuel` bounds the blocks. -/
def infStream : Nat → Inf → InfR Unit
  | 0, x => .error (stTruncated, x)
  | fuel + 1, x =>
    match infBlock x with
    | .error e => .error e
    | .ok (true, x) => .ok ((), { x with bits := x.bits.drop (x.bits.length % 8) })
    | .ok (false, x) => infStream fuel x

/-- A stream decoded from bytes on their own: its output and the bytes left over, if it is valid. -/
def inflateAll (l : List Byte) (lim : Nat) : Option (List Byte × List Byte) :=
  match infStream (8 * l.length + 1) ⟨toBits l, [], 0, 0, lim⟩ with
  | .ok (_, x) => some (x.out.reverse, l.drop (l.length - x.bits.length / 8))
  | .error _ => none

/-! ## Decompression (R381, R383, R384, R393) -/

/-- Steps of a decoder in sequence. -/
def InfR.bind {α β : Type} (r : InfR α) (f : α → Inf → InfR β) : InfR β :=
  match r with
  | .error e => .error e
  | .ok (a, x) => f a x

/-- The bytes of output from the start of the present stream. -/
def Inf.mine (x : Inf) : List Byte := (x.out.take (x.n - x.start)).reverse

/-- A status at this point. -/
def Inf.fail {α : Type} (x : Inf) (st : Nat) : InfR α := .error (st, x)

/-- The end of the input, or TRAILING. -/
def Inf.atEnd (x : Inf) : InfR Unit := if x.bits.isEmpty then .ok ((), x) else x.fail stTrailing

/-- A zlib stream. -/
def decodeZlib (x : Inf) : InfR Unit :=
  (x.bytes 2).bind fun h x =>
    let cmf := (nthD 0 h 0).toNat
    let flg := (nthD 0 h 1).toNat
    if cmf % 16 ≠ 8 ∨ 7 < cmf / 16 ∨ (cmf * 256 + flg) % 31 ≠ 0 ∨ flg / 32 % 2 = 1 then x.fail stBadHdr
    else
      (infStream (x.bits.length + 1) x).bind fun _ x =>
        (x.bytes 4).bind fun t x => if beNat t ≠ (adler32 x.mine).toNat then x.fail stChecksum else x.atEnd

/-- A zero-terminated field of a gzip header: its bytes, with the zero. -/
def gzString : Nat → List Byte → Inf → InfR (List Byte)
  | 0, acc, x => .ok (acc, x)
  | fuel + 1, acc, x => (x.bytes 1).bind fun b x => if b = [0] then .ok (acc ++ b, x) else gzString fuel (acc ++ b) x

/-- A gzip header. -/
def gzHeader (x : Inf) : InfR Unit :=
  (x.bytes 10).bind fun h x =>
    let flg := nthD 0 h 3
    if h.take 3 ≠ [0x1F, 0x8B, 8] ∨ fld flg 5 3 ≠ 0 then x.fail stBadHdr
    else
      let extra : InfR (List Byte) :=
        if bitAt flg 2 then (x.bytes 2).bind fun l x => (x.bytes (leNat l)).bind fun e x => .ok (h ++ l ++ e, x)
        else .ok (h, x)
      let name := extra.bind fun h x => if bitAt flg 3 then gzString (x.bits.length) h x else .ok (h, x)
      let comment := name.bind fun h x => if bitAt flg 4 then gzString (x.bits.length) h x else .ok (h, x)
      comment.bind fun h x =>
        if bitAt flg 1 then
          (x.bytes 2).bind fun c x => if leNat c ≠ (crc32 h).toNat % 65536 then x.fail stBadHdr else .ok ((), x)
        else .ok ((), x)

/-- Consecutive gzip members; `fuel` bounds their number. -/
def decodeGzip : Nat → Inf → InfR Unit
  | 0, x => .ok ((), x)
  | fuel + 1, x =>
    (gzHeader { x with start := x.n }).bind fun _ x =>
      (infStream (x.bits.length + 1) x).bind fun _ x =>
        (x.bytes 8).bind fun t x =>
          if leNat (t.take 4) ≠ (crc32 x.mine).toNat ∨ leNat (t.drop 4) ≠ (x.n - x.start) % 2 ^ 32 then x.fail stChecksum
          else if x.bits.isEmpty then .ok ((), x)
          else if toBytes (x.bits.take 16) |>.take 2 |> (· = [0x1F, 0x8B]) then decodeGzip fuel x
          else x.fail stTrailing

/-- CRC-32C check value of bytes 0 to 5 of a Twill header, low half (R382). -/
def hcrc (h : List Byte) : Nat := (crc32c (h.take 6)).toNat % 65536

/-- The blocks of a Twill stream (R383); `fuel` bounds their number. A block is written only once it has passed its checks. -/
def decodeTwill : Nat → Inf → InfR Unit
  | 0, x => x.fail stTruncated
  | fuel + 1, x =>
    (x.bytes 12).bind fun h x =>
      let orig := leNat (h.take 2) + 1
      let comp := leNat ((h.drop 2).take 2) + 1
      let flags := nthD 0 h 4
      let raw := bitAt flags 0
      if leNat ((h.drop 6).take 2) ≠ hcrc h ∨ nthD 0 h 5 ≠ 1 ∨ fld flags 2 6 ≠ 0 ∨ (raw ∧ comp ≠ orig) then x.fail stBadHdr
      else
        (x.bytes comp).bind fun p x =>
          let data : Option (List Byte) := if raw then some p else
            match inflateAll p orig with
            | some (d, []) => if d.length = orig then some d else none
            | _ => none
          match data with
          | none => x.fail stBadData
          | some d =>
            if leNat (h.drop 8) ≠ (crc32c d).toNat then x.fail stChecksum
            else
              match infStored d x with
              | .error e => .error e
              | .ok (_, x) => if bitAt flags 1 then x.atEnd else decodeTwill fuel x

/-- A Twill legacy frame (R384). A length that differs is BADDATA. -/
def decodeLegacy (x : Inf) : InfR Unit :=
  (x.bytes 16).bind fun h x =>
    if leNat (h.take 4) ≠ 0x474C5754 ∨ leNat ((h.drop 4).take 2) ≠ 1 ∨ leNat ((h.drop 6).take 2) ≠ 0 then x.fail stBadHdr
    else
      let before := x.bits.length
      (infStream (x.bits.length + 1) x).bind fun _ x =>
        let payload := (before - x.bits.length) / 8
        if leNat (h.drop 8) ≠ x.n - x.start then x.fail stBadData
        else
          (x.bytes 8).bind fun t x =>
            if leNat (t.take 4) ≠ (crc32c x.mine).toNat then x.fail stChecksum
            else if leNat (t.drop 4) ≠ payload % 2 ^ 32 then x.fail stBadData
            else x.atEnd

/-- A stream of a format decoded, with a limit: status, output, bytes of input consumed. -/
def decodeStream (format : Nat) (l : List Byte) (lim : Nat) : Nat × List Byte × Nat :=
  let x : Inf := ⟨toBits l, [], 0, 0, lim⟩
  let r : InfR Unit :=
    match format with
    | 0 => (infStream (x.bits.length + 1) x).bind fun _ x => x.atEnd
    | 1 => decodeZlib x
    | 2 => decodeGzip (l.length + 1) x
    | 3 => decodeTwill (l.length + 1) x
    | _ => decodeLegacy x
  let end_ (st : Nat) (x : Inf) : Nat × List Byte × Nat := (st, x.out.reverse, l.length - x.bits.length / 8)
  match r with
  | .ok (_, x) => end_ 0 x
  | .error (st, x) => end_ st x

/-! ## Compression (R380, R382, R384, R386) -/

/-- A compression under way: output bits so far, input before the next block newest first, ends of blocks (output bytes, input
bytes), blocks emitted raw or stored, failures of verification, failures in a row on the lane, uses of free values. -/
structure Comp where
  bits : List Bool
  past : List Byte
  n : Nat
  ends : List (Nat × Nat)
  raw : Nat
  bad : Nat
  row : Nat
  use : Nat
deriving DecidableEq, Repr

/-- A block is settled: its bits follow, and what it counts. Three failures in a row stand until the lane is retired (R387). -/
def Comp.put (c : Comp) (bits : List Bool) (block : List Byte) (raw bad verified : Bool) : Comp :=
  let bits := c.bits ++ bits
  { bits := bits, past := block.reverse ++ c.past, n := c.n + block.length,
    ends := c.ends ++ [((bits.length + 7) / 8, c.n + block.length)], raw := c.raw + b2n raw, bad := c.bad + b2n bad,
    row := if 3 ≤ c.row then c.row else if bad then c.row + 1 else if verified then 0 else c.row, use := c.use + 1 }

/-- A stored DEFLATE block after `done` bits. -/
def storedBits (done : Nat) (fin : Bool) (block : List Byte) : List Bool :=
  [fin, false, false] ++ copies ((8 - (done + 3) % 8) % 8) false
    ++ toBits (leBytes 2 block.length ++ leBytes 2 (65535 - block.length) ++ block)

/-- One DEFLATE block of at most 32,768 bytes: verified, or stored where it fails or would not be shorter. -/
def Comp.deflate (c : Comp) (level : Nat) (fin : Bool) (block : List Byte) : Comp :=
  let bits := fin :: Config.deflateBlock c.use level c.past.reverse block
  let stored := storedBits c.bits.length fin block
  if 8 * block.length ≤ bits.length then c.put stored block true false false
  else
    let good : Bool := match infBlock ⟨bits, c.past, c.n, 0, c.n + block.length⟩ with
      | .ok (f, x) => f == fin && x.bits.isEmpty && decide (x.out = block.reverse ++ c.past)
      | .error _ => false
    if good then c.put bits block false false true else c.put stored block true true true

/-- One Twill block. -/
def Comp.twill (c : Comp) (level : Nat) (fin : Bool) (block : List Byte) : Comp :=
  let comp := Config.deflateStream c.use level block
  let emit (payload : List Byte) (raw : Bool) : List Bool :=
    let h := leBytes 2 (block.length - 1) ++ leBytes 2 (payload.length - 1) ++ [BitVec.ofNat 8 (b2n raw + 2 * b2n fin), 1]
    toBits (h ++ leBytes 2 (hcrc h) ++ leBytes 4 (crc32c block).toNat ++ payload)
  if block.length ≤ comp.length then c.put (emit block true) block true false false
  else if inflateAll comp block.length = some (block, []) then c.put (emit comp false) block false false true
  else c.put (emit block true) block true true true

/-- Blocks of `size` bytes until the input or the limit is passed; `fuel` bounds their number. Of input that is cut short
(`cut`), only whole blocks are made. -/
def compBlocks (twill : Bool) (level size lim : Nat) (cut : Bool) : Nat → List Byte → Comp → Comp
  | 0, _, c => c
  | fuel + 1, l, c =>
    if l.isEmpty ∨ lim < (c.bits.length + 7) / 8 ∨ (cut ∧ l.length < size) then c
    else
      let block := l.take size
      let rest := l.drop size
      let fin := rest.isEmpty && !cut
      compBlocks twill level size lim cut fuel rest (if twill then c.twill level fin block else c.deflate level fin block)

/-- Header and trailer of a container around a compressed stream. -/
def wrapHead (format level n : Nat) : List Byte :=
  match format with
  | 1 => [0x78, nthD 0x01 [0x01, 0x5E, 0x9C, 0xDA] level]
  | 2 => [0x1F, 0x8B, 8, 0, 0, 0, 0, 0, (if level = 0 then 4 else if level = 3 then 2 else 0), 0xFF]
  | 4 => leBytes 4 0x474C5754 ++ leBytes 2 1 ++ leBytes 2 0 ++ leBytes 8 n
  | _ => []

def wrapTail (format : Nat) (l : List Byte) (payload : Nat) : List Byte :=
  match format with
  | 1 => beBytes 4 (adler32 l).toNat
  | 2 => leBytes 4 (crc32 l).toNat ++ leBytes 4 l.length
  | 4 => leBytes 4 (crc32c l).toNat ++ leBytes 4 payload
  | _ => []

/-- Adler-32 or CRC-32 of uncompressed data, as XSUM reports it (R391). -/
def xsum (format : Nat) (l : List Byte) : W32 :=
  match format with
  | 1 => adler32 l
  | 2 => crc32 l
  | _ => 0

end Sys2Proof.Machine
end

