-- ==== Sys2Proof/Machine/Translate.lean ====
section
/-! DEFINITION. Address translation (chapter 06): regimes, casements, TLB entries, walks, memory types, rights, and the exception
each failure raises. -/

namespace Sys2Proof.Machine

/-! ## Memory types -/

/-- A palette entry (R210). -/
def mtypeOf : Nat → MType
  | 0 => .devS | 1 => .devP | 2 => .nc | 3 => .wt | _ => .wb

def MType.code : MType → Nat
  | .devS => 0 | .devP => 1 | .nc => 2 | .wt => 3 | .wb => 4

def MType.device : MType → Bool
  | .devS | .devP => true
  | _ => false

/-- The lower of two codes prevails (R210). -/
def MType.meet (a b : MType) : MType := if a.code ≤ b.code then a else b

/-- Entry `j` of a palette register. -/
def paletteType (pal : W64) (j : Nat) : MType := mtypeOf (fld pal (8 * j) 3)

/-- The region of an address; a PCIe window beyond the last root complex is no region (R5). -/
def regionAt (pa : Nat) : Region := if (regionOf pa).ok then regionOf pa else .none

/-- The type of an access whose regime is off (R200). -/
def offType (pa : Nat) : MType := if (regionAt pa).memory then .wb else .devS

/-! ## Accesses -/

/-- What an access is, as far as rights and types tell accesses apart. -/
inductive AccKind
  | load | store | atomic | fetch | vload | vstore | st64 | dcz | preload | preloadX | dcrRead | dcrWrite
deriving DecidableEq, Repr

/-- Rights needed: R, W, X (R213, R103). -/
def AccKind.need : AccKind → Bool × Bool × Bool
  | .load | .vload | .preload | .dcrRead => (true, false, false)
  | .store | .vstore | .st64 | .dcz | .dcrWrite => (false, true, false)
  | .atomic => (true, true, false)
  | .fetch | .preloadX => (false, false, true)

/-- ECAUSE.WRITE. -/
def AccKind.write : AccKind → Bool
  | .store | .vstore | .st64 | .dcz | .atomic | .dcrWrite => true
  | _ => false

/-- Accesses that meet a clear dirty mark (R215): stores, atomics, DCZ. -/
def AccKind.dirties : AccKind → Bool
  | .store | .vstore | .st64 | .dcz | .atomic => true
  | _ => false

/-- DCR operations skip lines of Device pages (R106). -/
def AccKind.skipsDevice : AccKind → Bool
  | .dcrRead | .dcrWrite => true
  | _ => false

/-! ## Regimes -/

/-- The regime of a core (R197). -/
def Core.regime (k : Core) : Regime :=
  if k.pl = 3 then .pl3 else if k.secure then .secure else if k.pl = 2 then .pl2 else .normal

/-- A stage as its registers give it: enable, closed halves, table bases, palette, casement block, and the identity of its table
reads (R204). -/
structure Stage where
  en : Bool
  noLo : Bool
  noHi : Bool
  tb0 : Nat
  tb1 : Nat
  pal : W64
  cas : Nat
  sel : Option Bool
  users : Bool
  sec : Bool
  own : Nat
deriving DecidableEq, Repr

def baseField (v : W64) : Nat := fld v 12 40 * 4096

/-- The first or only stage of a regime. -/
def Core.stage1 (k : Core) (r : Regime) : Stage :=
  let cr := k.crBase
  let mk (cfg tb pal cas : Nat) (sel : Option Bool) (users sec : Bool) (own : Nat) : Stage :=
    ⟨bitAt (cr cfg) 0, bitAt (cr cfg) 1, bitAt (cr cfg) 2, baseField (cr tb), baseField (cr (tb + 1)), cr pal, cas, sel, users, sec, own⟩
  match r with
  | .normal => mk 0x124 0x120 0x123 0x130 none true false k.owner.toNat
  | .secure => mk 0x1124 0x1120 0x1123 0x1130 none true true k.owner.toNat
  | .pl2 => mk 0x22B 0x228 0x22A 0x230 (some true) false false 0
  | .pl3 => mk 0x323 0x320 0x322 0x330 none false true 1

/-- Stage 2 (R197): used by the normal regime while CR.S2CFG.EN is 1. -/
def Core.stage2On (k : Core) (r : Regime) : Bool := decide (r = .normal) && bitAt (k.crBase 0x223) 0

/-! ## Casements -/

/-- A casement pair as a mapping, unless its V is 0, it serves another stage, or it is BAD (R207, R208). -/
def casementOf (lo hi : W64) (sel : Option Bool) (stage2 users : Bool) (n : Nat) : Option XEnt :=
  let base := fld lo 21 27 * 2 ^ 21
  let size := (fld hi 31 26 + 1) * 2 ^ 21
  let out := fld hi 0 31 * 2 ^ 21
  let serves : Bool := match sel with
    | some b => bitAt lo 10 == b
    | none => true
  let bad : Bool := (if stage2 then 2 ^ 48 < base + size else base / 2 ^ 47 != (base + size - 1) / 2 ^ 47) || decide (2 ^ 52 < out + size)
  if bitAt lo 0 ∧ serves ∧ ¬ bad then
    some ⟨base, size, out, fld lo 1 3, if users then BitVec.ofNat 6 (fld lo 4 6) else BitVec.ofNat 6 (fld lo 4 3), true, true, some n⟩
  else none

/-- CR.xCASEnH.BAD of a pair (R207). -/
def casementBad (lo hi : W64) (block2 : Bool) : Bool :=
  let sel : Option Bool := if block2 then some (bitAt lo 10) else none
  let stage2 := block2 && !bitAt lo 10
  bitAt lo 0 && (casementOf lo hi sel stage2 false 0).isNone

/-- The lowest casement of a block that matches an address (R208). -/
def Core.casement (k : Core) (cas : Nat) (sel : Option Bool) (stage2 users : Bool) (a : Nat) : Option XEnt :=
  (List.range 8).findSome? (fun n =>
    match casementOf (k.crBase (cas + 2 * n)) (k.crBase (cas + 2 * n + 1)) sel stage2 users n with
    | some x => if x.base ≤ a ∧ a < x.base + x.size then some x else none
    | none => none)

/-! ## Table entries and walks -/

/-- Block size of a leaf at a level (R202). -/
def blockSize (lvl : Nat) : Nat := if lvl = 1 then 2 ^ 30 else if lvl = 2 then 2 ^ 21 else 2 ^ 12

/-- A leaf as a mapping of the block that holds `a`, with its access flag (R201). -/
def leafOf (e : W64) (lvl a : Nat) (users : Bool) : XEnt × Bool :=
  let sz := blockSize lvl
  (⟨a / sz * sz, sz, fld e 12 40 * 4096, fld e 2 3, BitVec.ofNat 6 (fld e 52 (if users then 6 else 3)), bitAt e 6,
    users && bitAt e 7, none⟩, bitAt e 5)

/-- One walk over four levels (R202, R203): `rd` reads an entry, `bad` names what a level found wrong. The answer is the leaf, its
level, and the pointers passed with their levels. -/
def walkTable {ε : Type} (rd : State → Nat → Nat → State × Except ε W64) (bad : Nat → Nat → ε) (a : Nat) :
    Nat → State → Nat → List (Nat × Nat) → State × Except ε (W64 × Nat × List (Nat × Nat))
  | 0, s, _, _ => (s, .error (bad 3 1))
  | n + 1, s, addr, ps =>
    let lvl := 3 - n
    match rd s lvl (addr + 8 * ((a / 2 ^ (39 - 9 * lvl)) % 512)) with
    | (s, .error e) => (s, .error e)
    | (s, .ok e) =>
      if ¬ bitAt e 0 then (s, .error (bad lvl 0))
      else if ¬ bitAt e 1 then walkTable rd bad a n s (fld e 12 40 * 4096) (if n = 0 then ps else (lvl, fld e 12 40 * 4096) :: ps)
      else if lvl = 0 ∨ (fld e 12 40 * 4096) % blockSize lvl ≠ 0 then (s, .error (bad lvl 1))
      else (s, .ok (e, lvl, ps))

/-- A table read (R204): 8 bytes through L2 by an owner, or the reason of Table 9. -/
def readTable (s : State) (c pa : Nat) (secure : Bool) (o : Nat) : State × Except Nat W64 :=
  if ¬ (regionAt pa).memory then (s, .error (if decide (regionAt pa = .none) then 5 else 1))
  else if ¬ populated s pa then (s, .error 5)
  else
    match coreRead (s.onCore c (fun k => streamTouched k (pa / 64))) c (pa / 64) .none (identIn s c secure o) with
    | (s, .error _) => (s, .error 3)
    | (s, .ok x) =>
      if bitAt x.poison (pa % 64 / 8) then (s.logErr .consumed 0 c 0x32 pa (recOwner s x.entry) 0, .error 4)
      else (s, .ok ((x.data >>> (8 * (pa % 64))).setWidth 64))

/-! ## Stage 2 -/

/-- A failure of a stage-2 translation: a translation fault (level, reason), a broken table read (level, reason), two entries
that match. -/
inductive S2Fail
  | trans (lvl reason : Nat)
  | walk (lvl reason : Nat)
  | conflict
deriving DecidableEq, Repr

/-- Whether a mapping holds an address. -/
def XEnt.holds (x : XEnt) (a : Nat) : Bool := x.base ≤ a && a < x.base + x.size

/-- Whether a TLB entry translates an address. -/
def TlbEnt.holds (e : TlbEnt) (a : Nat) : Bool := e.base ≤ a && a < e.base + e.size

/-- A TLB entry whose tags match the running context (R218). Whether stage 2 took part counts as part of the regime. -/
def Core.tlbTags (k : Core) (r : Regime) (only2 : Bool) (e : TlbEnt) : Bool :=
  decide (e.regime = r) && e.only2 == only2 && decide (e.owner = k.owner)
  && (r != .normal || e.vmid == fld (k.crBase 0x221) 0 16)
  && (only2 || r == .pl2 || r == .pl3 || e.s1.glob || e.asid == fld (k.crBase (crKey 0x122 k.secure)) 0 16)
  && (only2 || e.s2.isSome == k.stage2On r)

/-- The entries that translate an address. -/
def Core.tlbMatches (k : Core) (r : Regime) (only2 : Bool) (a : Nat) : List TlbEnt :=
  k.tlb.filter (fun e => k.tlbTags r only2 e && e.holds a)

/-- The addresses one entry of a level covers (R202). -/
def spanOf (lvl : Nat) : Nat := 2 ^ (39 - 9 * lvl)

/-- Whether a cached pointer serves an address in the running context (R217, R218). -/
def Core.ptrServes (k : Core) (r : Regime) (only2 : Bool) (a : Nat) (e : PtrEnt) : Bool :=
  decide (e.regime = r) && e.only2 == only2 && decide (e.owner = k.owner) && e.base == a / spanOf e.lvl * spanOf e.lvl
  && (r != .normal || e.vmid == fld (k.crBase 0x221) 0 16)
  && (only2 || r == .pl2 || r == .pl3 || e.asid == fld (k.crBase (crKey 0x122 k.secure)) 0 16)
  && (only2 || e.dep2 == k.stage2On r)

/-- Those entries removed, and the cached pointers with them. -/
def Core.tlbDrop (k : Core) (r : Regime) (only2 : Bool) (a : Nat) : Core :=
  { k with tlb := k.tlb.filter (fun e => !(k.tlbTags r only2 e && e.holds a)),
           ptrs := k.ptrs.filter (fun e => !k.ptrServes r only2 a e) }

/-- Where a walk starts: at the deepest table a cached pointer gives, else at the base, with the levels that remain (R217). -/
def Core.walkFrom (k : Core) (r : Regime) (only2 : Bool) (a tb : Nat) : Nat × Nat :=
  (k.ptrs.filter (k.ptrServes r only2 a)).foldl (fun best e => if 3 - e.lvl < best.1 then (3 - e.lvl, e.next) else best) (4, tb)

/-- The pointers of a walk that completed enter the table-entry cache of 64, the oldest leaving first (R217; the order is DESIGN CHOICE,
log 59), marked where a stage-2 casement gives the table's place (R209). -/
def Core.ptrsAdd (k : Core) (r : Regime) (only2 : Bool) (a : Nat) (ps : List (Nat × Nat)) : Core :=
  let new := ps.map (fun p => (⟨r, only2, fld (k.crBase 0x221) 0 16, fld (k.crBase (crKey 0x122 k.secure)) 0 16, k.owner,
    !only2 && k.stage2On r, p.1, a / spanOf p.1 * spanOf p.1, p.2,
    !only2 && k.stage2On r && (k.casement 0x230 (some false) true false p.2).isSome⟩ : PtrEnt))
  { k with ptrs := (new ++ k.ptrs).take 64 }

/-- The translation caches of Table 4 that hold TLB entries. -/
inductive TlbPart
  | i | d | l2
deriving DecidableEq, Repr

def TlbEnt.isIn (e : TlbEnt) : TlbPart → Bool
  | .i => e.inI
  | .d => e.inD
  | .l2 => e.in2

def TlbEnt.setIn (e : TlbEnt) (p : TlbPart) (b : Bool) : TlbEnt :=
  match p with
  | .i => { e with inI := b }
  | .d => { e with inD := b }
  | .l2 => { e with in2 := b }

/-- Entries of a fully associative TLB, or ways of the L2 TLB of 4,096 (R217). -/
def tlbWays : TlbPart → Nat
  | .i => 64
  | .d => 96
  | .l2 => 8

/-- The set of an entry: 512 of 8 ways in the L2 TLB, by an index the spec does not give (DESIGN CHOICE, log 59). -/
def tlbSet (e : TlbEnt) : TlbPart → Nat
  | .l2 => Config.tlbSet e.base e.size % 512
  | _ => 0

/-- Room for an entry in a TLB: one of a full set leaves it, which is free (R217; DESIGN CHOICE, log 59). -/
def Core.tlbRoom (k : Core) (use : Nat) (p : TlbPart) (e : TlbEnt) : Core :=
  let same := k.tlb.filter (fun x => x.isIn p && tlbSet x p == tlbSet e p)
  if same.length < tlbWays p then k
  else
    let v := nthD e same (Config.tlbVictim use same.length % same.length)
    { k with tlb := (k.tlb.map (fun x => if x = v then x.setIn p false else x)).filter (fun x => x.inI || x.inD || x.in2) }

/-- Room for an entry in each of some TLBs. -/
def tlbMake (s : State) (c : Nat) (ps : List TlbPart) (e : TlbEnt) : State :=
  ps.foldl (fun s p => s.useFree.onCore c (fun k => k.tlbRoom s.free p e)) s

/-- A translation of the addresses from `base` put into TLBs with the tags of the running context. -/
def tlbAdd (s : State) (c : Nat) (ps : List TlbPart) (r : Regime) (only2 marked : Bool) (base size : Nat) (x : XEnt)
    (s2 : Option XEnt) : State :=
  let k := s.core c
  let e : TlbEnt := ⟨r, only2, fld (k.crBase 0x221) 0 16, fld (k.crBase (crKey 0x122 k.secure)) 0 16, k.owner, base, size, x, s2, marked,
    false, false, false⟩
  (tlbMake s c ps e).onCore c (fun k => { k with tlb := ps.foldl (fun e p => e.setIn p true) e :: k.tlb })

/-- The events of an access that misses an L1 TLB (R465). -/
def tlbMiss (s : State) (c : Nat) : TlbPart → State
  | .i => s.event c 0x015 1
  | .d => s.event c 0x014 1
  | .l2 => s

/-- A hit on an entry: where the L1 TLBs asked do not hold it, they miss and take it from the L2 TLB. -/
def tlbHit (s : State) (c : Nat) (ps : List TlbPart) (e : TlbEnt) : State :=
  ps.foldl (fun s p =>
    if e.isIn p then s
    else (tlbMake (tlbMiss s c p) c [p] e).onCore c (fun k => { k with tlb := k.tlb.map (fun x => if x = e then x.setIn p true else x) })) s

/-- The L1 TLB of an access. -/
def AccKind.tlb (k : AccKind) : TlbPart := if k = .fetch then .i else .d

/-- stage2() of R203: casement, TLB or walk. The answer is the mapping and its access flag. `l1` names the L1 TLB where the address is an
access's own (R200). -/
def stage2 (s : State) (c ipa : Nat) (l1 : List TlbPart) : State × Except S2Fail (XEnt × Bool) :=
  let k := s.core c
  match k.casement 0x230 (some false) true false ipa with
  | some x => (s, .ok (x, true))
  | none =>
    match k.tlbMatches .normal true ipa with
    | [e] => (tlbHit s c l1 e, .ok (e.s1, true))
    | _ :: _ :: _ => (s.onCore c (fun k => k.tlbDrop .normal true ipa), .error .conflict)
    | [] =>
      let s := (l1.foldl (fun s p => tlbMiss s c p) s).event c 0x016 1
      let rd (s : State) (lvl ea : Nat) : State × Except S2Fail W64 :=
        match readTable s c ea false 0 with
        | (s, .error r) => (s, .error (.walk lvl r))
        | (s, .ok e) => (s, .ok e)
      let (n, tb) := k.walkFrom .normal true ipa (baseField (k.crBase 0x220))
      match walkTable rd S2Fail.trans ipa n s tb [] with
      | (s, .error e) => (s, .error e)
      | (s, .ok (e, lvl, ps)) =>
        let s := s.onCore c (fun k => k.ptrsAdd .normal true ipa ps)
        let (x, af) := leafOf e lvl ipa false
        (if af then tlbAdd s c (l1 ++ [.l2]) .normal true false x.base x.size x none else s, .ok (x, af))

/-- The level of a table mapping from its size; 0 for a casement. -/
def levelOf (x : XEnt) : Nat :=
  if x.cas.isSome then 0 else if x.size = 2 ^ 30 then 1 else if x.size = 2 ^ 21 then 2 else 3

/-! ## Faults -/

/-- An exception of an access, with the route level. -/
def accExc (code route : Nat) (va : W64) (k : AccKind) (detail eipa : Nat) : Exc :=
  { Exc.plain code route va detail with write := k.write, fetch := decide (k = .fetch), eipa := BitVec.ofNat 64 eipa }

/-- DETAIL of a WALK (Table 9). -/
def walkDetail (lvl : Nat) (st2 : Bool) (n : Option Nat) (reason : Nat) : Nat :=
  lvl + b2n st2 * 4 + (match n with | some l => 8 + l * 16 | none => 0) + reason * 256

/-- The exception of a failed stage-2 translation of an access's own IPA. -/
def s2Exc (f : S2Fail) (va : W64) (k : AccKind) (ipa : Nat) : Exc :=
  match f with
  | .trans lvl r => accExc 0x09 2 va k (lvl + r * 16) ipa
  | .walk lvl r => accExc 0x0F 2 va k (walkDetail lvl true none r) ipa
  | .conflict => accExc 0x0E 2 va k 1 ipa

/-- The exception of a stage-2 failure on a stage-1 table address (R206, Table 9): WALK with N = 1. For two entries that match, Table 9
has no reason: TRANSLATION_CONFLICT of stage 2 is raised, as R222 gives for an access (DESIGN CHOICE, log 93). -/
def s2WalkExc (f : S2Fail) (va : W64) (k : AccKind) (lvl1 ea : Nat) : Exc :=
  match f with
  | .trans lvl r =>
    let reason := if r = 0 then 6 else if r = 1 then 7 else 0xA
    accExc 0x0F 2 va k (walkDetail lvl true (some lvl1) reason) ea
  | .walk lvl r => accExc 0x0F 2 va k (walkDetail lvl true (some lvl1) r) ea
  | .conflict => accExc 0x0E 2 va k 1 ea

/-- The reading of one stage-1 table entry at `ea` (R203, R204). Where several conditions of R204 fail, the one tested first is reported:
type, region and extent, ownership, poison (DESIGN CHOICE, log 94). Where the stage-2 translation of its address denies R, has AF clear or
is out of range, no table read failed: the level reported is that of the stage-2 leaf, 0 for a casement and out of range (DESIGN CHOICE,
log 112). -/
def readEntry1 (s : State) (c : Nat) (st : Stage) (two : Bool) (va : W64) (k : AccKind) (lvl ea : Nat) : State × Except Exc W64 :=
  let fail (s : State) (r ipa : Nat) : State × Except Exc W64 :=
    (s, .error (accExc 0x0F (if two then 2 else 1) va k (walkDetail lvl false none r) ipa))
  if ¬ two then
    match readTable s c ea st.sec st.own with
    | (s, .error r) => fail s r 0
    | (s, .ok e) => (s, .ok e)
  else if 2 ^ 48 ≤ ea then (s, .error (s2WalkExc (.trans 0 4) va k lvl ea))
  else
    match stage2 s c ea [] with
    | (s, .error f) => (s, .error (s2WalkExc f va k lvl ea))
    | (s, .ok (x, af)) =>
      let n1 (r : Nat) : State × Except Exc W64 :=
        (s, .error (accExc 0x0F 2 va k (walkDetail (levelOf x) true (some lvl) r) ea))
      if ¬ bitAt x.rights 0 then n1 8
      else if ¬ af then n1 9
      else
        let pa := x.out + (ea - x.base)
        let t := paletteType ((s.core c).crBase 0x222) x.pal
        if t.device then fail s 1 ea
        else if t ≠ .wb then fail s 2 ea
        else match readTable s c pa st.sec st.own with
          | (s, .error r) => fail s r ea
          | (s, .ok e) => (s, .ok e)

/-! ## Stage 1 -/

/-- A first-stage mapping, and the second-stage mapping of a combined TLB entry where one was used. -/
structure First where
  x : XEnt
  af : Bool
  s2 : Option XEnt
  cached : Bool
deriving DecidableEq, Repr

/-- The first stage of a regime that is on (R199, R203, R208, R222). -/
def stage1 (s : State) (c : Nat) (r : Regime) (st : Stage) (va : W64) (k : AccKind) : State × Except Exc First :=
  let q := s.core c
  let a := fld va 0 48
  let top := fld va 47 17
  let two := q.stage2On r
  if top ≠ 0 ∧ top ≠ 2 ^ 17 - 1 then (s, .error (accExc 0x08 1 va k 0x20 0))
  else
    match q.casement st.cas st.sel false st.users a with
    | some x => (s, .ok ⟨x, true, none, false⟩)
    | none =>
      let high := bitAt va 47
      if (if high then st.noHi else st.noLo) then (s, .error (accExc 0x08 1 va k 0x30 0))
      else
        match q.tlbMatches r false a with
        | [e] => (tlbHit s c [k.tlb] e, .ok ⟨e.s1, true, e.s2, true⟩)
        | _ :: _ :: _ => (s.onCore c (fun q => q.tlbDrop r false a), .error (accExc 0x0E 1 va k 0 0))
        | [] =>
          let s := (tlbMiss s c k.tlb).event c 0x016 1
          let rd (s : State) (lvl ea : Nat) : State × Except Exc W64 := readEntry1 s c st two va k lvl ea
          let bad (lvl reason : Nat) : Exc := accExc 0x08 1 va k (lvl + reason * 16) 0
          let (n, tb) := q.walkFrom r false a (if high then st.tb1 else st.tb0)
          match walkTable rd bad a n s tb [] with
          | (s, .error e) => (s, .error e)
          | (s, .ok (e, lvl, ps)) =>
            let s := s.onCore c (fun q => q.ptrsAdd r false a ps)
            let (x, af) := leafOf e lvl a st.users
            (s, .ok ⟨x, af, none, false⟩)

/-! ## The whole translation -/

/-- What an access gets: physical address and memory type. -/
structure Xlat where
  pa : Nat
  mt : MType
deriving DecidableEq, Repr

/-- What the stages gave an access: first and second mapping, first and second access flag, IPA, physical address, type, and
whether a cached entry took part. -/
structure Mapped where
  s1 : Option XEnt
  af1 : Bool
  s2 : Option XEnt
  af2 : Bool
  ipa : Nat
  pa : Nat
  mt : MType
  cached : Bool
deriving DecidableEq, Repr

/-- The smallest block two mappings share, for the combined entry of R209. -/
def jointSize (x y : XEnt) : Nat :=
  let one (z : XEnt) : Nat := if z.cas.isSome then 2 ^ 21 else z.size
  min (one x) (one y)

/-- A stage-2 casement matches some address of a block of IPAs (R208). -/
def Core.casementIn (k : Core) (ipa size : Nat) : Bool :=
  (List.range 8).any (fun n =>
    match casementOf (k.crBase (0x230 + 2 * n)) (k.crBase (0x230 + 2 * n + 1)) (some false) true false n with
    | some z => z.base < ipa + size && ipa < z.base + z.size
    | none => false)

/-- The block of a combined entry for the address `a`: no larger than a casement's grain where a stage-2 casement lies in it, so that
no entry covers an address that a casement translates. -/
def Core.jointBlock (k : Core) (a : Nat) (x y : XEnt) : Nat :=
  let sz := jointSize x y
  if k.casementIn (x.out + (a - x.base) / sz * sz) sz then min sz (2 ^ 21) else sz

/-- A finished translation enters the TLB (R209, R218): not where every stage was a casement, nor with a clear access flag. -/
def cacheXlat (s : State) (c : Nat) (l1 : TlbPart) (r : Regime) (a : Nat) (x : XEnt) (af : Bool) (y : Option (XEnt × Bool)) : State :=
  match y with
  | none => if x.cas.isSome ∨ ¬ af then s else tlbAdd s c [l1, .l2] r false false x.base x.size x none
  | some (y, af2) =>
    if ¬ af ∨ ¬ af2 ∨ (x.cas.isSome ∧ y.cas.isSome) then s
    else
      let sz := (s.core c).jointBlock a x y
      tlbAdd s c [l1, .l2] r false (x.cas.isSome || y.cas.isSome) (a / sz * sz) sz x (some y)

/-- The stages run (R197-R200, R203, R210). With stage 1 off behind stage 2, the region that gives the first stage's type is that of the
final physical address (DESIGN CHOICE, log 92). -/
def runStages (s : State) (c : Nat) (va : W64) (k : AccKind) : State × Except Exc Mapped :=
  let q := s.core c
  let r := q.regime
  let st := q.stage1 r
  let two := q.stage2On r
  let a := fld va 0 48
  let one : State × Except Exc (Option First × Nat) :=
    if st.en then
      match stage1 s c r st va k with
      | (s, .error e) => (s, .error e)
      | (s, .ok f) => (s, .ok (some f, f.x.out + (a - f.x.base)))
    else if fld va 52 12 ≠ 0 then (s, .error (accExc 0x08 1 va k 0x40 0))
    else (s, .ok (none, fld va 0 52))
  match one with
  | (s, .error e) => (s, .error e)
  | (s, .ok (f, out)) =>
    let t1 (pa : Nat) : MType := match f with
      | some f => paletteType st.pal f.x.pal
      | none => offType pa
    if ¬ two then
      let s := match f with
        | some f => if f.cached then s else cacheXlat s c k.tlb r a f.x f.af none
        | none => s
      (s, .ok ⟨f.map (·.x), (f.map (·.af)).getD true, none, true, 0, out, t1 out, (f.map (·.cached)).getD false⟩)
    else if 2 ^ 48 ≤ out then (s, .error (accExc 0x09 2 va k 0x40 out))
    else
      let t2 (s : State) (y : XEnt) : MType := paletteType ((s.core c).crBase 0x222) y.pal
      match f.bind (·.s2) with
      | some y =>
        let y := ((s.core c).casement 0x230 (some false) true false out).getD y
        let pa := y.out + (out - y.base)
        (s, .ok ⟨f.map (·.x), true, some y, true, out, pa, (t1 pa).meet (t2 s y), true⟩)
      | none =>
        let hit : Bool := ((s.core c).casement 0x230 (some false) true false out).isNone
          && !((s.core c).tlbMatches .normal true out).isEmpty
        match stage2 s c out (if st.en then [] else [k.tlb]) with
        | (s, .error e) => (s, .error (s2Exc e va k out))
        | (s, .ok (y, af2)) =>
          let pa := y.out + (out - y.base)
          let s := match f with
            | some f => cacheXlat s c k.tlb r a f.x f.af (some (y, af2))
            | none => s
          (s, .ok ⟨f.map (·.x), (f.map (·.af)).getD true, some y, af2, out, pa, (t1 pa).meet (t2 s y),
            hit || (f.map (·.cached)).getD false⟩)

/-- The type and region reason of a PERMISSION, in the order of R486. -/
def typeReason (s : State) (k : AccKind) (m : Mapped) : Option Nat :=
  let vectorish := k = .vload ∨ k = .vstore ∨ k = .atomic
  if ¬ populated s m.pa then some 4
  else if ¬ m.mt.device ∧ ¬ (regionAt m.pa).memory then some 3
  else if ¬ m.mt.device then none
  else if k = .fetch then some 2
  else if vectorish then some 1
  else if k = .st64 ∧ m.mt = .devS then some 5
  else if k = .dcz ∨ k = .preload ∨ k = .preloadX then some 6
  else none

/-- Whether R, W and X rights grant what is needed. -/
def granted (need : Bool × Bool × Bool) (r w x : Bool) : Bool :=
  (!need.1 || r) && (!need.2.1 || w) && (!need.2.2 || x)

/-- The verdict of the first stage on rights (R213, R214): denied, or GUARD. -/
def stage1Rights (q : Core) (st : Stage) (k : AccKind) (x : XEnt) : Bool × Bool :=
  let b (i : Nat) : Bool := bitAt x.rights i
  let need := k.need
  if ¬ st.users then (!granted need (b 0) (b 1) (b 2), false)
  else
    let userPage := b 0 || b 1 || b 2
    if q.pl = 0 then (!granted need (b 0) (b 1) (b 2), false)
    else if ¬ userPage then (!granted need (b 3) (b 4) (b 5), false)
    else if need.2.2 then (false, true)
    else if q.uopen then (!granted need (b 0) (b 1) (b 2), false)
    else (false, true)

/-- DETAIL of a denied right: stage, casement (R486, Table 9). -/
def rightDetail (st2 : Bool) (x : XEnt) : Nat :=
  b2n st2 + (match x.cas with | some n => 2 + n * 4 | none => 0)

/-- The causes after a translation, in the order of R67: ALIGN for a Device access, PERMISSION, GUARD, ACCESS_FLAG, DIRTY. -/
def checkMapped (s : State) (c : Nat) (va : W64) (k : AccKind) (aligned : Bool) (m : Mapped) : Option Exc :=
  let q := s.core c
  let r := q.regime
  let st := q.stage1 r
  let two := q.stage2On r
  let (deny1, guard) := match m.s1 with
    | some x => stage1Rights q st k x
    | none => (false, false)
  let deny2 := match m.s2 with
    | some y => !granted k.need (bitAt y.rights 0) (bitAt y.rights 1) (bitAt y.rights 2)
    | none => false
  if m.mt.device ∧ ¬ aligned ∧ ¬ k.skipsDevice then some { alignExc va k.write with fetch := decide (k = .fetch) }
  else
    match typeReason s k m with
    | some reason => some (accExc 0x0A (if two then 2 else 1) va k (b2n two + reason * 256) m.ipa)
    | none =>
      if deny1 then some (accExc 0x0A 1 va k ((m.s1.map (rightDetail false)).getD 0) 0)
      else if deny2 then some (accExc 0x0A 2 va k ((m.s2.map (rightDetail true)).getD 1) m.ipa)
      else if guard then some (accExc 0x0B 1 va k 0 0)
      else if ¬ m.af1 then some (accExc 0x0C 1 va k 0 0)
      else if ¬ m.af2 then some (accExc 0x0C 2 va k 1 m.ipa)
      else if k.dirties ∧ (m.s1.map (·.dirty)).getD true = false then some (accExc 0x0D 1 va k 0 0)
      else if k.dirties ∧ (m.s2.map (·.dirty)).getD true = false then some (accExc 0x0D 2 va k 1 m.ipa)
      else none

/-- PERMISSION, ACCESS_FLAG and DIRTY are confirmed by a fresh walk (R216). -/
def confirmed (e : Exc) : Bool := e.code == 0x0A || e.code == 0x0C || e.code == 0x0D

/-- The cached entries behind a mapping are discarded (R216). -/
def forget (s : State) (c : Nat) (va : W64) (m : Mapped) : State :=
  s.onCore c (fun q => (q.tlbDrop q.regime false (fld va 0 48)).tlbDrop .normal true m.ipa)

/-- Translation of one access of the running core. -/
def translate (s : State) (c : Nat) (va : W64) (k : AccKind) (aligned : Bool) : State × Except Exc Xlat :=
  match runStages s c va k with
  | (s, .error e) => (s, .error e)
  | (s, .ok m) =>
    match checkMapped s c va k aligned m with
    | none => (s, .ok ⟨m.pa, m.mt⟩)
    | some e =>
      if ¬ confirmed e ∨ ¬ m.cached then (s, .error e)
      else
        match runStages (forget s c va m) c va k with
        | (s, .error e) => (s, .error e)
        | (s, .ok m) =>
          match checkMapped s c va k aligned m with
          | none => (s, .ok ⟨m.pa, m.mt⟩)
          | some e => (s, .error e)

end Sys2Proof.Machine
end

