-- ==== Sys2Proof/Machine/Iommu.lean ====
section
/-! DEFINITION. The IOMMUs of the root complexes and offload complexes (R444-R447): contexts, stream ownership, walks, caches, the
fault log. -/

namespace Sys2Proof.Machine

/-- A DMA master with its registers: a root complex, or an offload complex. -/
inductive Dma
  | rc (k : Nat)
  | oec (k : Nat)
deriving DecidableEq, Repr

def Dma.index : Dma → Nat
  | .rc k => k
  | .oec k => 8 + k

def Dma.cfg (s : State) : Dma → W64
  | .rc k => s.reg .rcIocfg k 0 0
  | .oec k => s.reg .oecIocfg k 0 0

def Dma.limit (s : State) : Dma → Nat
  | .rc k => s.regF .rcIoctxlim k 0 0 0 17
  | .oec k => s.regF .oecIoctxlim k 0 0 0 17

def State.iommu (s : State) (a : Dma) : Iommu := lookD Iommu.reset s.iommus a.index
def State.setIommu (s : State) (a : Dma) (x : Iommu) : State := { s with iommus := put s.iommus a.index x }

/-! ## The fault log (R446) -/

/-- The faults of the log: reason, and whether the second stage failed. -/
abbrev IoFault := Nat × Bool

def ioFault (s : State) (a : Dma) (addr : W64) (sid : Nat) (write : Bool) (f : IoFault) : State :=
  let (pr, wr, src) : RegId × RegId × Nat := match a with
    | .rc k => (.rcIofltptr, .rcIoflt, 80 + k)
    | .oec k => (.oecIofltptr, .oecIoflt, 88 + k)
  let n : Nat := match a with
    | .rc k => k
    | .oec k => k
  let ptr := s.reg pr n 0 0
  let slot := fld ptr 0 6
  let m := s.iommu a
  let again : Bool := m.logged == 64
  let s := s.setIommu a { m with logged := min 64 (m.logged + 1) }
  let s := s.setReg wr n (2 * slot) 0 addr
  let s := s.setReg wr n (2 * slot + 1) 0
    (BitVec.ofNat 64 (sid % 2 ^ 16 + f.1 * 2 ^ 16 + b2n write * 2 ^ 20 + b2n f.2 * 2 ^ 21))
  let s := s.setReg pr n 0 0 (setFld ptr 0 6 (slot + 1))
  raiseEvent (if again then s.bump pr n 0 0 16 16 1 else s) src

/-! ## Reads of the IOMMU's own -/

/-- The QoS class of a master's traffic (R254). -/
def Dma.qos (s : State) : Dma → Nat
  | .rc k => s.regF .rcCfg k 0 0 12 6
  | .oec k => s.regF .oecCfg k 0 0 8 6

/-- An access of a master whose check has failed, or the check of a table read it needs (R331, R332). -/
def Dma.denied (s : State) (a : Dma) (pa o : Nat) : State :=
  match a with
  | .rc _ => denyLast (s.bump .ownDenycnt 0 0 0 0 16 1) pa o
  | .oec _ => denyLast (s.bump .ownDenycnt 0 0 0 16 16 1) pa o

/-- A word read coherently at its home under R204: none where it lies outside memory, fails its check or is poisoned. A failed check counts
as R331 gives (DEDUCED, log 91). -/
def ioWord (s : State) (a : Dma) (pa : Nat) (secure : Bool) (o : Nat) : State × Option W64 :=
  if ¬ (regionAt pa).memory ∨ ¬ populated s pa then (s, none)
  else
    match homeRead { s with qos := a.qos s } (pa / 64) secure o with
    | (s, .error _) => (Dma.denied s a pa o, none)
    | (s, .ok x) => if bitAt x.poison (pa % 64 / 8) then (s, none) else (s, some ((x.data >>> (8 * (pa % 64 / 8 * 8))).setWidth 64))

/-- The context of a stream, cached; none where it is unreadable (R444, R445). -/
def ioContext (s : State) (a : Dma) (sid : Nat) : State × Option (List W64) :=
  match look (s.iommu a).ctxs sid with
  | some w => (s, some w)
  | none =>
    let base := fld (a.cfg s) 12 40 * 4096 + 32 * sid
    let step (acc : State × Option (List W64)) (i : Nat) : State × Option (List W64) :=
      match acc.2 with
      | none => acc
      | some l => match ioWord acc.1 a (base + 8 * i) false 0 with
        | (s, some w) => (s, some (l ++ [w]))
        | (s, none) => (s, none)
    match (List.range 4).foldl step (s, some []) with
    | (s, some w) =>
      let x := s.iommu a
      (s.setIommu a { x with ctxs := put (if x.ctxs.length < 256 then x.ctxs else x.ctxs.tail) sid w }, some w)
    | (s, none) => (s, none)

/-- WORLD and OWNER of a stream of a root complex, from its ownership entry (R447); none where the entry cannot be used. -/
def streamOwner (s : State) (k sid : Nat) : State × Option (Bool × Nat) :=
  let sown := s.reg .rcSown k 0 0
  if ¬ bitAt sown 0 then (s, some (false, 0))
  else
    let use (e : W16) : Option (Bool × Nat) :=
      if ¬ bitAt e 15 then some (false, 0)
      else if fld e 0 12 = 4095 ∨ fld e 13 2 ≠ 0 then none
      else some (bitAt e 12, fld e 0 12)
    match look (s.iommu (.rc k)).owns sid with
    | some e => (s, use e)
    | none =>
      let pa := fld sown 12 40 * 4096 + 2 * sid
      match ioWord s (.rc k) pa true 1 with
      | (s, none) => (s, none)
      | (s, some w) =>
        let e : W16 := (w >>> (8 * (pa % 8))).setWidth 16
        let x := s.iommu (.rc k)
        (s.setIommu (.rc k) { x with owns := put (if x.owns.length < 256 then x.owns else x.owns.tail) sid e }, use e)

/-! ## Walks (R444) -/

/-- One stage, of the low half alone: the mapping and its access flag, or a reason. -/
def ioStage (s : State) (rd : State → Nat → State × Except IoFault W64) (base a : Nat) (users : Bool) :
    State × Except IoFault (XEnt × Bool) :=
  match walkTable (fun s _ ea => rd s ea) (fun _ r => ((if r = 0 then 3 else 4), !users)) a 4 s base [] with
  | (s, .error f) => (s, .error f)
  | (s, .ok (e, lvl, _)) => (s, .ok (leafOf e lvl a users))

/-- The second stage of a context on an address; one beyond the low half has no entry to walk to, and is non-canonical (DEDUCED,
log 126). -/
def ioStage2 (s : State) (m : Dma) (ctx : List W64) (a : Nat) : State × Except IoFault (XEnt × Bool) :=
  if a / 2 ^ 47 ≠ 0 then (s, .error (2, true)) else
  ioStage s (fun s ea => match ioWord s m ea false 0 with
    | (s, some w) => (s, .ok w)
    | (s, none) => (s, .error (8, true))) (fld (nthD 0 ctx 1) 12 40 * 4096) a false

/-- Rights and access flag of a second-stage mapping for an access. -/
def check2 (x : XEnt × Bool) (write : Bool) : Option IoFault :=
  if ¬ x.2 then some (6, true)
  else if ¬ bitAt x.1.rights (b2n write) then some (5, true)
  else none

/-- An entry of a first-stage table: its address passes the second stage where that is on, whose leaf must make it Normal write-back (R204),
and it is read with the stream's owner. -/
def ioRead1 (s : State) (m : Dma) (ctx : List W64) (secure : Bool) (o ea : Nat) : State × Except IoFault W64 :=
  let read (s : State) (pa : Nat) : State × Except IoFault W64 :=
    match ioWord s m pa secure o with
    | (s, some w) => (s, .ok w)
    | (s, none) => (s, .error (8, false))
  if bitAt (nthD 0 ctx 0) 2 then
    match ioStage2 s m ctx ea with
    | (s, .error f) => (s, .error f)
    | (s, .ok x) =>
      match check2 x false with
      | some f => (s, .error f)
      | none =>
        if paletteType (nthD 0 ctx 3) x.1.pal ≠ .wb then (s, .error (8, false)) else read s (x.1.out + ea % x.1.size)
  else read s ea

/-- The whole translation of a bus address in MODE 2: the mapping as cached. The first stage's access flag and right come before the second
stage (R203). -/
def ioWalk (s : State) (m : Dma) (ctx : List W64) (sid : Nat) (secure : Bool) (o a : Nat) (write : Bool) :
    State × Except IoFault IoMap :=
  let w0 := nthD 0 ctx 0
  let id_ : XEnt := ⟨a / 4096 * 4096, 4096, a / 4096 * 4096, 0, 0x3F, false, false, none⟩
  let one : State × Except IoFault (XEnt × Bool) :=
    if bitAt w0 1 then ioStage s (fun s ea => ioRead1 s m ctx secure o ea) (fld w0 12 40 * 4096) a true else (s, .ok (id_, true))
  match one with
  | (s, .error f) => (s, .error f)
  | (s, .ok (x, af)) =>
    if ¬ af then (s, .error (6, false))
    else if ¬ bitAt x.rights (b2n write) then (s, .error (5, false))
    else
      let ipa := x.out + a % x.size
      let two : State × Except IoFault (Option (XEnt × Bool)) :=
        if bitAt w0 2 then match ioStage2 s m ctx ipa with
          | (s, .ok y) => (s, .ok (some y))
          | (s, .error f) => (s, .error f)
        else (s, .ok none)
      match two with
      | (s, .error f) => (s, .error f)
      | (s, .ok y) =>
        if (y.map (fun p => p.2)).getD true = false then (s, .error (6, true))
        else
          let t1 := if bitAt w0 1 then paletteType (nthD 0 ctx 2) x.pal else .wb
          let (size, out, mt, r2, w2) : Nat × Nat × MType × Bool × Bool := match y with
            | none => (x.size, x.out + a % x.size, t1, true, true)
            | some (z, _) => (min x.size z.size, z.out + ipa % z.size, t1.meet (paletteType (nthD 0 ctx 3) z.pal),
                bitAt z.rights 0, bitAt z.rights 1)
          (s, .ok ⟨sid, a / size * size, size, out / size * size, bitAt x.rights 0, bitAt x.rights 1, r2, w2, mt⟩)

/-- A bus address translated for a stream of a world and owner (R444, R445): the physical address, or the fault to log. -/
def ioTranslate (s : State) (a : Dma) (sid : Nat) (secure : Bool) (o : Nat) (addr : W64) (write : Bool) :
    State × Except IoFault Nat :=
  let out (s : State) (pa : Nat) : State × Except IoFault Nat :=
    if (regionAt pa).memory ∧ populated s pa then (s, .ok pa) else (s, .error (9, false))
  match fld (a.cfg s) 0 2 with
  | 1 => out s addr.toNat
  | 2 =>
    if a.limit s ≤ sid then (s, .error (0, false))
    else
      match ioContext s a sid with
      | (s, none) => (s, .error (1, false))
      | (s, some ctx) =>
        let w0 := nthD 0 ctx 0
        if ¬ bitAt w0 0 then (s, .error (0, false))
        else if addr.toNat / 2 ^ 47 ≠ 0 then (s, .error (2, false))
        else if ¬ bitAt w0 1 ∧ ¬ bitAt w0 2 then out s addr.toNat
        else
          let use (s : State) (m : IoMap) : State × Except IoFault Nat :=
            if ¬ (if write then m.w1 else m.r1) then (s, .error (5, false))
            else if ¬ (if write then m.w2 else m.r2) then (s, .error (5, true))
            else if m.mt.device then (s, .error (7, false))
            else out s (m.out + addr.toNat % m.size)
          match (s.iommu a).maps.find? (fun m => m.sid == sid && m.base ≤ addr.toNat && addr.toNat < m.base + m.size) with
          | some m => use s m
          | none =>
            match ioWalk s a ctx sid secure o addr.toNat write with
            | (s, .error f) => (s, .error f)
            | (s, .ok m) =>
              let x := s.iommu a
              use (s.setIommu a { x with maps := (if x.maps.length < 2048 then x.maps else x.maps.tail) ++ [m] }) m
  | _ => (s, .error (0, false))

/-! ## Invalidation (R445, R447) -/

/-- The entries of a stream, or all, leave an IOMMU's caches. -/
def ioDrop (s : State) (a : Dma) (sid : Option Nat) : State :=
  let x := s.iommu a
  let keep (n : Nat) : Bool := match sid with
    | none => false
    | some i => n != i
  s.setIommu a { x with ctxs := x.ctxs.filter (fun p => keep p.1), maps := x.maps.filter (fun m => keep m.sid) }

/-- The ownership entries of a stream, or all, leave a root complex's cache. -/
def sownDrop (s : State) (k : Nat) (sid : Option Nat) : State :=
  let x := s.iommu (.rc k)
  let keep (n : Nat) : Bool := match sid with
    | none => false
    | some i => n != i
  s.setIommu (.rc k) { x with owns := x.owns.filter (fun p => keep p.1) }

/-- A write of IOINV or SOWNINV with GO: the entries named leave; GO reads 1 until the done event. -/
def invWrite (s : State) (a : RegAt) (off len : Nat) (v : W64) (x : Attr) (drop : State → Option Nat → State) : State :=
  let s := levelWrite s a x
  let w := newValue s a off len v x
  let s := s.setReg a.d.id a.n a.k a.j w
  if asserted a off len v x 17 then drop s (if bitAt w 16 then none else some (fld w 0 16)) else s

end Sys2Proof.Machine
end

