-- ==== Sys2Proof/Machine/OecOps.lean ====
section
/-! DEFINITION. Offload complexes (chapter 13): instances and portals, sharing of lanes, the accesses of a lane and the work of a
descriptor. -/

namespace Sys2Proof.Machine

/-! ## Instances -/

def State.lane (s : State) (k l : Nat) : Lane := lookD Lane.reset s.lanes (8 * k + l)
def State.setLane (s : State) (k l : Nat) (x : Lane) : State := { s with lanes := put s.lanes (8 * k + l) x }
def State.vi (s : State) (k v : Nat) : Vi := lookD Vi.reset s.vis (256 * k + v)
def State.setVi (s : State) (k v : Nat) (x : Vi) : State := { s with vis := put s.vis (256 * k + v) x }

/-- Instance states (Table 7): 0 FREE, 1 CREATED, 2 ENABLED, 3 RESETTING. -/
def viState (s : State) (k v : Nat) : Nat := s.regF .oecVictl k v 0 8 2

def setViState (s : State) (k v st : Nat) : State :=
  s.setReg .oecVictl k v 0 (setBit (setFld (s.reg .oecVictl k v 0) 8 2 st) 1 (st == 2))

def setViErr (s : State) (k v e : Nat) : State := s.setRegF .oecVictl k v 0 16 3 e

def qcount (s : State) (k v : Nat) : Nat := s.regF .oecVicfg k v 0 0 5
def creditsOf (s : State) (k v : Nat) : Nat := s.regF .oecVicfg k v 0 16 13

/-- Jobs on the lanes of a complex. -/
def jobs (s : State) (k : Nat) : List Job := (List.range 8).filterMap (fun l => (s.lane k l).job)

/-- Descriptors of an instance queued or running. -/
def viBusy (s : State) (k v : Nat) : Bool :=
  (s.vi k v).queues.any (fun p => !p.2.isEmpty) || (jobs s k).any (fun j => j.vi == v)

/-- The first rule of CREATE that fails, 0 for none (R396). -/
def createError (s : State) (k v : Nat) : Nat :=
  let q := qcount s k v
  let c := creditsOf s k v
  if q < 1 ∨ 16 < q then 1
  else if c < 1 ∨ 4096 < c then 2
  else if (List.range q).any (fun i => 2 ^ s.regF .oecViring k v i 0 5 < c) then 3
  else if s.regF .oecPool k 0 0 0 11 < q ∨ s.regF .oecPool k 0 0 16 15 < c then 4
  else 0

/-- Queues and credits leave the pool, or return. -/
def poolTake (s : State) (k v : Nat) (back : Bool) : State :=
  let p := s.reg .oecPool k 0 0
  let move (lo w n : Nat) (p : W64) : W64 := setFld p lo w (if back then fld p lo w + n else fld p lo w - n)
  s.setReg .oecPool k 0 0 (move 16 15 (creditsOf s k v) (move 0 11 (qcount s k v) p))

/-- CREATE. -/
def viCreate (s : State) (k v : Nat) : State :=
  if viState s k v ≠ 0 then setViErr s k v 5
  else
    match createError s k v with
    | 0 => setViErr (setViState ((poolTake s k v false).setVi k v { Vi.reset with free := creditsOf s k v }) k v 1) k v 0
    | e => setViErr s k v e

/-- DESTROY. -/
def viDestroy (s : State) (k v : Nat) : State :=
  if viState s k v = 1 ∧ ¬ viBusy s k v then setViErr (setViState (poolTake s k v true) k v 0) k v 0 else setViErr s k v 5

/-- ENABLE. -/
def viEnable (s : State) (k v : Nat) (en : Bool) : State :=
  if en ∧ viState s k v = 1 then setViState s k v 2
  else if ¬ en ∧ viState s k v = 2 then setViState s k v 1
  else s

/-! ## Accesses of a lane (R379, R393, R401) -/

/-- The mesh stop of a lane. -/
def laneStop (k l : Nat) : Nat := nthD 0 [100, 102, 112, 114] k + l / 4

def viSecure (s : State) (k v : Nat) : Bool := bitAt (s.reg .oecViown k v 0) 16
def viOwner (s : State) (k v : Nat) : Nat := s.regF .oecViown k v 0 0 12
def viSid (s : State) (k v : Nat) : Nat := s.regF .oecVictx k v 0 0 16

/-- Why an access of a lane failed. -/
inductive LaneFail
  | xlate (f : IoFault)
  | own (pa : Nat)
  | poison (pa owner : Nat)
deriving DecidableEq, Repr

/-- Its status (Table 6). -/
def LaneFail.status : LaneFail → Nat
  | .xlate f => if f.1 = 9 then stUnmapped else stXlate
  | .own _ => stOwnership
  | .poison _ _ => stPoison

/-- What a failed access leaves: the fault log, the denial count, the poison record, VIFAULT. -/
def laneFailed (s : State) (k v : Nat) (va : W64) (write : Bool) (f : LaneFail) : State :=
  match f with
  | .xlate r =>
    let s := ioFault s (.oec k) va (viSid s k v) write r
    if r.1 = 9 then s else s.setReg .oecVifault k v 0 va
  | .own pa => denyLast (s.bump .ownDenycnt 0 0 0 16 16 1) pa (viOwner s k v)
  | .poison pa o => (s.logErr .consumed 7 k 0x34 pa o (BitVec.ofNat 64 v)).setReg .oecVifault k v 0 va

/-- A read of `n` bytes within one line. -/
def laneRead (s : State) (k l v : Nat) (va : W64) (n : Nat) : State × Except LaneFail (List Byte) :=
  let sec := viSecure s k v
  let o := viOwner s k v
  match ioTranslate s (.oec k) (viSid s k v) sec o va false with
  | (s, .error f) => (s, .error (.xlate f))
  | (s, .ok pa) =>
    match homeRead (chargeAccess s (laneStop k l) (pa / 64) (fld (s.reg .oecCfg k 0 0) 8 6)) (pa / 64) sec o with
    | (s, .error _) => (s, .error (.own pa))
    | (s, .ok x) =>
      if x.poison &&& wordsOf (enables (pa % 64) n) != 0 then (s, .error (.poison (firstPoison (pa / 64) x.poison (pa % 64) n) (recOwner s x.entry)))
      else (s, .ok ((List.range n).map (fun i => byteOf x.data (pa % 64 + i))))

/-- A write of the bytes `en` of one line from `va`. -/
def laneWrite (s : State) (k l v : Nat) (va : W64) (data : List Byte) (en : Nat) : State × Option LaneFail :=
  let sec := viSecure s k v
  let o := viOwner s k v
  match ioTranslate s (.oec k) (viSid s k v) sec o va true with
  | (s, .error f) => (s, some (.xlate f))
  | (s, .ok pa) =>
    let d : W512 := BitVec.ofNat 512 (leNat data) <<< (8 * (pa % 64))
    match homeWrite (chargeAccess s (laneStop k l) (pa / 64) (fld (s.reg .oecCfg k 0 0) 8 6)) (pa / 64) sec o d (en <<< (pa % 64)) 0 with
    | (s, .error _) => (s, some (.own pa))
    | (s, .ok _) => (s, none)

/-- Bytes from `va` within its line, at most `n`. -/
def inLine (va : W64) (n : Nat) : Nat := min n (64 - va.toNat % 64)

/-- The source of a descriptor, up to the first access that fails; `fuel` bounds the lines. -/
def readSource : Nat → State → Nat → Nat → Nat → W64 → Nat → List (List Byte) →
    State × List Byte × Option (W64 × LaneFail)
  | 0, s, _, _, _, _, _, acc => (s, acc.reverse.flatten, none)
  | fuel + 1, s, k, l, v, va, n, acc =>
    if n = 0 then (s, acc.reverse.flatten, none)
    else
      let m := inLine va n
      match laneRead s k l v va m with
      | (s, .error f) => (s, acc.reverse.flatten, some (va, f))
      | (s, .ok b) => readSource fuel s k l v (va + BitVec.ofNat 64 m) (n - m) (b :: acc)

/-- Output written from `va`: how much, and the access that failed; `fuel` bounds the lines. -/
def writeOut : Nat → State → Nat → Nat → Nat → W64 → List Byte → Nat → State × Nat × Option (W64 × LaneFail)
  | 0, s, _, _, _, _, _, done => (s, done, none)
  | fuel + 1, s, k, l, v, va, data, done =>
    if data.isEmpty then (s, done, none)
    else
      let m := inLine va data.length
      match laneWrite s k l v va (data.take m) (2 ^ m - 1) with
      | (s, some f) => (s, done, some (va, f))
      | (s, none) => writeOut fuel s k l v (va + BitVec.ofNat 64 m) (data.drop m) (done + m)

/-- Output that may or may not have been written (R390, R400): each byte as a free value says, where its address takes a write. -/
def writeMixed : Nat → State → Nat → Nat → Nat → W64 → List Byte → Nat → State
  | 0, s, _, _, _, _, _, _ => s.useFree
  | fuel + 1, s, k, l, v, va, data, at_ =>
    if data.isEmpty then s.useFree
    else
      let m := inLine va data.length
      let en := ((List.range m).map (fun i => if Config.mixedByte s.free (at_ + i) then 2 ^ i else 0)).sum
      let s := if en = 0 then s else (laneWrite s k l v va (data.take m) en).1
      writeMixed fuel s k l v (va + BitVec.ofNat 64 m) (data.drop m) (at_ + m)

/-! ## Descriptors (Table 4) -/

def descOp (d : W512) : Nat := fld d 64 8
def descFormat (d : W512) : Nat := fld d 72 8
def descLevel (d : W512) : Nat := fld d 80 8
def descCont (d : W512) : Bool := bitAt d 88
def descIntr (d : W512) : Bool := bitAt d 89
def descFence (d : W512) : Bool := bitAt d 90
def descSrclen (d : W512) : Nat := fld d 96 32
def descSrc (d : W512) : W64 := d.extractLsb' 128 64
def descDst (d : W512) : W64 := d.extractLsb' 192 64
def descDstlen (d : W512) : Nat := fld d 256 32
def descCrcin (d : W512) : W32 := d.extractLsb' 288 32
def descBlock (d : W512) : Nat := fld d 320 16

/-- 16 MiB. -/
def maxLen : Nat := 0x1000000

/-- A descriptor breaks a rule of Table 4, or its ranges overlap (R389). CRCIN is not used while CRCCONT is 0. -/
def badDesc (d : W512) : Bool :=
  let op := descOp d
  let crc := op == 3
  let twill := op == 1 && descFormat d == 3
  let src := (descSrc d).toNat
  let dst := (descDst d).toNat
  op < 1 || 3 < op || 4 < descFormat d || (crc && descFormat d != 0)
    || fld d 82 6 != 0 || (op != 1 && descLevel d != 0)
    || fld d 91 5 != 0
    || descSrclen d < 1 || maxLen < descSrclen d
    || (crc && (dst != 0 || descDstlen d != 0))
    || (!crc && (descDstlen d < 1 || maxLen < descDstlen d || (src < dst + descDstlen d && dst < src + descSrclen d)))
    || (if twill then 64 < descBlock d else descBlock d != 0)
    || fld d 336 176 != 0

def Outcome.plain (st : Nat) : Outcome := ⟨st, 0, 0, 0xFFFFFFFF, 0, 0, false⟩

/-- The running value a descriptor starts from (R394). -/
def crcStart (d : W512) : W32 := if descCont d then descCrcin d else 0xFFFFFFFF

/-- What a lane makes of its input before any byte is written: status, output, input consumed, and the compression. -/
structure Work where
  status : Nat
  out : List Byte
  inlen : Nat
  comp : Comp
deriving DecidableEq, Repr

/-- Decoding, with input that may be cut short by a failed read. -/
def decodeWork (d : W512) (input : List Byte) (failed : Option LaneFail) (use row : Nat) : Work :=
  let (st, out, n) := decodeStream (descFormat d) input (descDstlen d)
  let st := match failed with
    | some f => if st = stTruncated ∨ st = 0 then f.status else st
    | none => st
  ⟨st, out, n, ⟨[], [], 0, [], 0, 0, row, use⟩⟩

/-- Compression. -/
def compressWork (d : W512) (input : List Byte) (failed : Option LaneFail) (use row : Nat) : Work :=
  let fmt := descFormat d
  let twill := fmt == 3
  let level := descLevel d % 4
  let size := if twill then (if descBlock d = 0 then 64 else descBlock d) * 1024 else 32768
  let head := wrapHead fmt level (descSrclen d)
  let lim := descDstlen d
  let c := compBlocks twill level size (lim - head.length) failed.isSome (input.length + 1) input ⟨[], [], 0, [], 0, 0, row, use⟩
  let body := toBytes c.bits
  let done := failed.isNone && c.n == input.length
  let full := head ++ body ++ (if done then wrapTail fmt input body.length else [])
  let whole := ((c.ends.filter (fun e => head.length + e.1 ≤ lim)).map (·.2)).foldl max 0
  if lim < full.length then ⟨stLimit, full.take lim, whole, c⟩
  else
    match failed with
    | none => ⟨0, full, c.n, c⟩
    | some f => ⟨f.status, head ++ toBytes (c.bits.take (c.bits.length / 8 * 8)), c.n, c⟩

/-- The work of a job on what its source holds. -/
def jobWork (s : State) (k l : Nat) (j : Job) : State × Work × List Byte × Option (W64 × LaneFail) :=
  let d := j.desc
  let row := (s.lane k l).fails
  match readSource (descSrclen d + 1) s k l j.vi (descSrc d) (descSrclen d) [] with
  | (s, input, bad) =>
    let f := bad.map (·.2)
    let w := if descOp d = 1 then compressWork d input f s.free row
      else if descOp d = 2 then decodeWork d input f s.free row
      else ⟨(f.map LaneFail.status).getD 0, [], input.length, ⟨[], [], 0, [], 0, 0, row, s.free⟩⟩
    ({ s with free := max s.free w.comp.use }, w, input, bad)

/-- Records and counts of verification failures (R386). -/
def verifyLog : Nat → State → Nat → Nat → State
  | 0, s, _, _ => s
  | n + 1, s, k, l =>
    verifyLog n ((s.bump .oecLanestat k 0 0 16 16 1).logErr .corrected 7 k 0x38 0 4095 (BitVec.ofNat 64 l)) k l

/-- A job is done: its output written and its outcome known (R386, R390, R393, R394). -/
def runJob (s : State) (k l : Nat) (j : Job) : State × Outcome :=
  let d := j.desc
  let (s, w, input, bad) := jobWork s k l j
  let s := verifyLog w.comp.bad s k l
  let s := s.setLane k l { s.lane k l with fails := w.comp.row }
  let (s, written, wbad) := writeOut (w.out.length + 1) s k l j.vi (descDst d) w.out 0
  let s := match wbad with
    | some (va, f) =>
      writeMixed (w.out.length + 1) (laneFailed s k j.vi va true f) k l j.vi (descDst d + BitVec.ofNat 64 written)
        (w.out.drop written) written
    | none =>
      match bad with
      | some (va, f) => if w.status = f.status then laneFailed s k j.vi va false f else s
      | none => s
  let st := match wbad with
    | some (_, f) => f.status
    | none => w.status
  let plain := if descOp d = 1 then input.take w.inlen else w.out.take written
  (s, ⟨st, written, w.inlen, crcBytes (crcStart d) (input.take w.inlen), xsum (if descOp d = 3 then 0 else descFormat d) plain,
    w.comp.raw, 0 < w.comp.bad⟩)

/-! ## Sharing lanes (R399) -/

/-- A unit of VT in which a cycle divided by any weight is whole. -/
def vtScale : Nat := (List.range 255).foldl (fun a i => Nat.lcm a (i + 1)) 1

/-- The head of a queue may start: neither halted, and with FENCE no earlier descriptor of the queue runs. -/
def headMay (s : State) (k v q : Nat) : Bool :=
  let st := s.reg .oecVistat k v 0
  match lookD [] (s.vi k v).queues q with
  | [] => false
  | (_, d) :: _ => !bitAt st q && !bitAt st 16 && !(descFence d && (jobs s k).any (fun j => j.vi == v && j.queue == q))

def startable (s : State) (k v : Nat) : Bool := (List.range 16).any (headMay s k v)

/-- Instances of a complex with anything kept about them. -/
def knownVis (s : State) (k : Nat) : List Nat :=
  (s.vis.filter (fun p => p.1 / 256 == k)).map (fun p => p.1 % 256)

def lowestVt (s : State) (k : Nat) : Nat :=
  (((knownVis s k).filter (fun v => (s.vi k v).joined)).map (fun v => (s.vi k v).vt)).foldl
    (fun (m : Option Nat) x => some (match m with
      | none => x
      | some y => min x y)) none |>.getD 0

/-- Instances join and leave cand. -/
def updateCand (s : State) (k : Nat) : State :=
  (knownVis s k).foldl (fun s v =>
    let x := s.vi k v
    let may := startable s k v
    if may ∧ ¬ x.joined then s.setVi k v { x with joined := true, wait := 0, vt := max x.vt (lowestVt s k) }
    else if ¬ may ∧ x.joined then s.setVi k v { x with joined := false }
    else s) s

/-- The instance of a lane-slot. -/
def pickVi (s : State) (k : Nat) : Option Nat :=
  let cand := (knownVis s k).filter (fun v => (s.vi k v).joined)
  let late := cand.filter (fun v => 63 ≤ (s.vi k v).wait)
  let best (l : List Nat) (better : Vi → Vi → Bool) : Option Nat := l.foldl (fun b v => match b with
    | none => some v
    | some u => if better (s.vi k v) (s.vi k u) then some v else some u) none
  if late.isEmpty then best cand (fun a b => a.vt < b.vt) else best late (fun a b => b.wait < a.wait)

/-- The queue whose turn it is. -/
def pickQueue (s : State) (k v : Nat) : Option Nat :=
  ((List.range 16).map (fun i => ((s.vi k v).turn + i) % 16)).find? (headMay s k v)

/-- A lane that may take work (R387, R402). -/
def laneUsable (s : State) (k l : Nat) : Bool :=
  bitAt (s.reg .oecCfg k 0 0) l && !bitAt (s.reg .oecLanestat k 0 0) l

def anyLane (s : State) (k : Nat) : Bool := (List.range 8).any (laneUsable s k)

/-- A descriptor starts on a lane, or ends at once with BADDESC or NOLANE. -/
def startJob (s : State) (k l v q : Nat) : State :=
  let x := s.vi k v
  match lookD [] x.queues q with
  | [] => s
  | (seq, d) :: rest =>
    let s := s.setVi k v { x with queues := put x.queues q rest, turn := (q + 1) % 16, wait := 0 }
    let r : Option Outcome := if ¬ anyLane s k then some { Outcome.plain stNoLane with crcrun := crcStart d }
      else if badDesc d then some { Outcome.plain stBadDesc with crcrun := crcStart d } else none
    let s := if r.isNone then s.setReg .oecLanestat k 0 0 (setBit (s.reg .oecLanestat k 0 0) (8 + l) true) else s
    s.setLane k l { s.lane k l with job := some ⟨v, q, seq, d, r⟩ }

/-- One lane-slot. -/
def laneSlotOf (s : State) (k l : Nat) : State :=
  let s := updateCand s k
  match pickVi s k with
  | none => s
  | some v =>
    match pickQueue s k v with
    | none => s
    | some q =>
      let s := (knownVis s k).foldl (fun s u =>
        let x := s.vi k u
        if x.joined ∧ u ≠ v then s.setVi k u { x with wait := x.wait + 1 } else s) s
      updateCand (startJob s k l v q) k

/-! ## Completion (R387, R391, R392, R401) -/

/-- The 32 bytes of a completion record. -/
def recordBytes (tag : W64) (seq : Nat) (o : Outcome) (phase : Bool) (l : Nat) : List Byte :=
  leBytes 8 tag.toNat ++ leBytes 4 o.outlen ++ leBytes 4 o.inlen ++ leBytes 4 o.crcrun.toNat ++ leBytes 2 seq
    ++ [BitVec.ofNat 8 o.status, BitVec.ofNat 8 (b2n phase + 2 * b2n o.verifyfb + 4 * l)]
    ++ leBytes 4 o.xsum.toNat ++ leBytes 4 o.rawblk

/-- A lane is free again; one with three failures in a row is retired. -/
def freeLane (s : State) (k l : Nat) : State :=
  let x := s.lane k l
  let s := s.setLane k l { x with job := none }
  let v := setBit (s.reg .oecLanestat k 0 0) (8 + l) false
  if 3 ≤ x.fails ∧ ¬ bitAt v l then
    (s.setReg .oecLanestat k 0 0 (setBit v l true)).logErr .notice 7 k 0x39 0 4095 (BitVec.ofNat 64 l)
  else s.setReg .oecLanestat k 0 0 v

/-- The completion of a job with its outcome: POISON halts the queue; a record that cannot be written halts the instance. -/
def completeJob (s : State) (k l : Nat) (j : Job) (o : Outcome) : State :=
  let v := j.vi
  let s := if o.status = stPoison then s.setReg .oecVistat k v 0 (setBit (s.reg .oecVistat k v 0) j.queue true) else s
  let ring := s.reg .oecViring k v j.queue
  let sz := fld ring 0 5
  let x := s.vi k v
  let c := lookD 0 x.ended j.queue
  let va : W64 := BitVec.ofNat 64 (fld ring 12 40 * 4096 + 32 * (c % 2 ^ sz))
  let rec_ := recordBytes (j.desc.setWidth 64) j.seq o (c / 2 ^ sz % 2 == 0) l
  let s := s.setVi k v { x with ended := put x.ended j.queue (c + 1) }
  match laneWrite s k l v va rec_ (2 ^ 32 - 1) with
  | (s, some f) =>
    let s := laneFailed s k v va true f
    s.setReg .oecVistat k v 0 (setFld (setBit (s.reg .oecVistat k v 0) 16 true) 24 8 f.status)
  | (s, none) =>
    let s := s.setVi k v { s.vi k v with free := (s.vi k v).free + 1 }
    let i := s.reg .oecViint k v 0
    if descIntr j.desc ∧ bitAt i 12 ∧ 256 ≤ fld i 0 12 then raiseEvent s (fld i 0 12) else s

/-! ## Instance reset (R400) -/

/-- RESET: queued descriptors are squashed, running ones aborted, their destinations left in any mixture. -/
def viReset (s : State) (k v : Nat) : State :=
  if viState s k v ≠ 1 ∧ viState s k v ≠ 2 then s
  else
    let s := setViState s k v 3
    let s := s.setVi k v { s.vi k v with queues := [], joined := false }
    (List.range 8).foldl (fun s l =>
      match (s.lane k l).job with
      | none => s
      | some j =>
        if j.vi ≠ v then s
        else
          let s := if j.result.isSome ∨ descOp j.desc = 3 then s
            else
              let (_, w, _, _) := jobWork s k l j
              writeMixed (w.out.length + 1) s k l v (descDst j.desc) w.out 0
          freeLane s k l) s

/-- The end of an instance reset. -/
def viResetDone (s : State) (k v : Nat) : State :=
  if viState s k v ≠ 3 then s
  else
    let s := setViState s k v 1
    let st := s.reg .oecVistat k v 0
    let s := s.setReg .oecVistat k v 0 (setBit (setBit (setFld st 0 16 0) 16 false) 17 true)
    let x := s.vi k v
    s.setVi k v { Vi.reset with free := creditsOf s k v, vt := x.vt }

/-! ## Portals (R397, R398) -/

/-- Where an address lies in a portal page: complex, instance, offset. -/
def portalAt (pa : Nat) : Option (Nat × Nat × Nat) :=
  if pa < 0xF000004000000 ∨ 0xF000008000000 ≤ pa then none
  else
    let r := pa - 0xF000004000000
    let o := r % 0x1000000
    if o < 0x800000 ∨ 0x900000 ≤ o then none
    else some (r / 0x1000000, (o - 0x800000) / 0x1000, o % 0x1000)

/-- A portal serves PRIV 0 to 3; another access is denied (R255). -/
def portalServes (x : Attr) : Bool := x.priv.toNat ≤ 3

def portalDeny (s : State) (k : Nat) : State := s.bump .meshDeny (laneStop k 0) 0 0 0 16 1

/-- The word at 0x800. -/
def portalWord (s : State) (k v : Nat) : W64 :=
  let st := s.reg .oecVistat k v 0
  BitVec.ofNat 64 ((s.vi k v).free % 2 ^ 13 + b2n (viState s k v == 2) * 2 ^ 16 + b2n (bitAt st 16) * 2 ^ 17
    + fld st 0 16 * 2 ^ 32)

/-- A portal store is discarded. -/
def portalDrop (s : State) (k v : Nat) : State := s.bump .oecVistat k v 0 32 16 1

/-- A portal store of a descriptor to a queue. -/
def portalPut (s : State) (k v q : Nat) (d : W512) (x : Attr) : State :=
  let st := s.reg .oecVistat k v 0
  let i := s.vi k v
  let mine : Bool := x.secure || (x.owner.toNat == viOwner s k v && !viSecure s k v)
  if qcount s k v ≤ q ∨ viState s k v ≠ 2 ∨ bitAt st q ∨ bitAt st 16 ∨ i.free = 0 ∨ ¬ blockRuns s (.oec ⟨k % 4, Nat.mod_lt _ (by decide)⟩)
      ∨ ¬ mine then portalDrop s k v
  else
    let seq := lookD 0 i.nextSeq q
    updateCand (s.setVi k v { i with free := i.free - 1, nextSeq := put i.nextSeq q ((seq + 1) % 2 ^ 16),
                                     queues := put i.queues q (lookD [] i.queues q ++ [(seq, d)]) }) k

/-- Any store to a portal page; `d` is the descriptor of an ST64. -/
def portalWrite (s : State) (k v o : Nat) (d : Option W512) (x : Attr) : State :=
  if ¬ portalServes x then portalDeny s k
  else if 0x400 ≤ o ∨ o % 0x40 ≠ 0 then s
  else
    match d with
    | some d => portalPut s k v (o / 0x40) d x
    | none => portalDrop s k v

/-- A read of a portal page. -/
def portalRead (s : State) (k v o len : Nat) (x : Attr) : State × W64 :=
  if ¬ portalServes x then (portalDeny s k, 0)
  else if o / 8 * 8 = 0x800 then (s, sliceBytes (portalWord s k v) (o % 8) len)
  else (s, 0)

/-! ## Setup registers (R396) and the complex (R402) -/

/-- A write of VICTL: its requests in bit order. -/
def victlWrite (s : State) (a : RegAt) (off len : Nat) (v : W64) (x : Attr) : State :=
  let s := levelWrite s a x
  let s := if asserted a off len v x 0 then viCreate s a.n a.k else s
  let s := if touches a off len x 1 then viEnable s a.n a.k (bitAt (inputWord off len v) 1) else s
  let s := if asserted a off len v x 2 then viReset s a.n a.k else s
  if asserted a off len v x 3 then viDestroy s a.n a.k else s

/-- A write of a setup register whose fields are fixed outside FREE; `always` may be written at any time. -/
def viSetupWrite (s : State) (a : RegAt) (off len : Nat) (v : W64) (x : Attr) (always : Nat → Bool) : State :=
  let s := levelWrite s a x
  let free := viState s a.n a.k == 0
  let old := s.reg a.d.id a.n a.k a.j
  s.setReg a.d.id a.n a.k a.j (fieldsWritten a.d old v off len x (fun f => free || always f.lo))

/-- A write of OEC[k].IOCFG or IOCTXLIM: only while every instance is FREE. -/
def oecIoWrite (s : State) (a : RegAt) (off len : Nat) (v : W64) (x : Attr) : State :=
  let s := levelWrite s a x
  if (List.range 256).all (fun i => viState s a.n i == 0) then
    s.setReg a.d.id a.n 0 0 (newValue s a off len v x)
  else s

/-- ERRCODE of a complex: LANEEN names no lane that is not retired. -/
def oecError (s : State) (k : Nat) : Nat := if anyLane s k then 0 else 1

end Sys2Proof.Machine
end

