-- ==== Sys2Proof/Machine/RcOps.lean ====
section
/-! DEFINITION. Root complexes as blocks: the checks of RUN (R429), port control (R434, R435, R443), stream halts (R442), IDE keys
(R449) and check units (R395). -/

namespace Sys2Proof.Machine

/-! ## RUN (R429) -/

/-- Bounds of an HDM range, where it is enabled. -/
def hdmRange (s : State) (k r : Nat) : Option (Nat × Nat × Nat) :=
  let lo := s.reg .rcHdmlo k r 0
  if bitAt lo 0 then
    let b := fld lo 28 24 * 2 ^ 28
    some (b, b + s.regF .rcHdmhi k r 0 0 17 * 2 ^ 28, fld lo 1 2)
  else none

/-- The HDM ranges break R429: an overlap, a port without its CXL bit, SIZE 0, or a range outside window 1 + k. -/
def hdmBad (s : State) (k : Nat) : Bool :=
  let rs := (List.range 8).filterMap (hdmRange s k)
  let cxl := s.regF .rcCfg k 0 0 8 4
  let win := s.reg .meshWin 132 (1 + k) 0
  let wb := fld win 22 22 * 2 ^ 30
  let we := wb + fld win 1 21 * 2 ^ 30
  rs.any (fun r => !cxl.testBit r.2.2 || decide (r.2.1 ≤ r.1) || decide (r.1 < wb) || decide (we < r.2.1))
    || (List.range rs.length).any (fun i => (List.range i).any (fun j =>
        let a := nthD (0, 0, 0) rs i
        let b := nthD (0, 0, 0) rs j
        a.1 < b.2.1 && b.1 < a.2.1))

/-- ERRCODE of a root complex, 0 for none; RC[4] to RC[7] have no CXL. -/
def rcError (s : State) (k : Nat) : Nat :=
  let cfg := s.reg .rcCfg k 0 0
  let cxl := fld cfg 8 4
  if 5 ≤ fld cfg 0 3 then 1
  else if (4 ≤ k ∧ cxl ≠ 0) ∨ (List.range 4).any (fun p => cxl.testBit p && !(portsOf (fld cfg 0 3)).contains p) then 2
  else if s.regF .rcIocfg k 0 0 0 2 = 3 then 3
  else if hdmBad s k then 4
  else 0

/-! ## Events of root ports -/

/-- An AER error of a root port is recorded, and its source's event delivered (R451). -/
def raiseAer (s : State) (k p bit : Nat) : State := settleLate (noteAer s k p bit)

/-- Bits of Slot Status are set, and the hot-plug source raised as one of them rises (R434, R451). -/
def raiseSlot (s : State) (k p : Nat) (bits : W16) : State :=
  let x := s.port k p
  let s := s.setPort k p { x with slot := x.slot ||| bits }
  if bits &&& ~~~x.slot = 0 then s else raiseEvent s (16 + 4 * k + p)

/-- A link goes down at the request of software: no event, no containment. -/
def linkOff (s : State) (k p : Nat) : State :=
  s.setReg .rcPortstat k p 0 (setFld (s.reg .rcPortstat k p 0) 0 12 0)

/-- 100 ms of CR.TIME (R434). -/
def perstWait : Nat := 120000000

/-- PERST_N follows PORTCTL.PERST: low at once; high 100 ms after PWREN last became 1. -/
def drivePerst (s : State) (k p : Nat) (was now : Bool) : State :=
  let x := s.port k p
  if now then linkOff (s.setPort k p { x with low := true, perstDue := false }) k p
  else if was then
    if x.pwrAt = 0 ∨ x.pwrAt + perstWait ≤ s.now then s.setPort k p { x with low := false, perstDue := false }
    else s.setPort k p { x with perstDue := true }
  else s

/-- The output register of a port's expander follows PWREN, ATTN and PWRLED, in bits 4 to 6 (R434). -/
def driveSlot (s : State) (k p : Nat) : State :=
  let x := s.port k p
  s.setPort k p { x with expander := { x.expander with output := BitVec.ofNat 8 (s.regF .rcPortctl k p 0 2 3 * 16) } }

/-- A write of PORTCTLp. -/
def portctlWrite (s : State) (a : RegAt) (off len : Nat) (v : W64) (x : Attr) : State :=
  let s := levelWrite s a x
  let k := a.n
  let p := a.k
  let old := s.reg .rcPortctl k p 0
  let w := setBit (setBit (newValue s a off len v x) 5 false) 6 false
  let s := driveSlot (s.setReg .rcPortctl k p 0 w) k p
  let s := if bitAt w 2 ∧ ¬ bitAt old 2 then s.setPort k p { s.port k p with pwrAt := max 1 s.now } else s
  let s := drivePerst s k p (bitAt old 0) (bitAt w 0)
  let s := if bitAt old 1 ∧ ¬ bitAt w 1 then linkOff s k p else s
  let s := if asserted a off len v x 5 then s.setPort k p { s.port k p with turnOff := true } else s
  if asserted a off len v x 6 ∧ linkState s k p = 2 then s.setRegF .rcPortstat k p 0 15 1 0 else s

/-- A read of PORTSTATp: a link that trains reads LINK 1 (R434). -/
def portstatRead (s : State) (a : RegAt) (off len : Nat) (x : Attr) : State × W64 :=
  let (s', v) := plainRead s a off len x
  (s', if portTrains s a.n a.k ∧ a.d.level ≤ attrLevel x ∧ off = 0 then v ||| 1 else v)

/-! ## Stream halts (R442) -/

/-- SHALT.COUNT follows the streams halted. -/
def setHalted (s : State) (k : Nat) (l : List Nat) : State :=
  (s.setRc k { s.rc k with halted := l }).setRegF .rcShalt k 0 0 16 16 l.length

/-- A stream is halted. -/
def haltStream (s : State) (k sid : Nat) : State :=
  let l := (s.rc k).halted
  let s := setHalted s k (if l.contains sid then l else l ++ [sid])
  s.setRegF .rcShalt k 0 0 0 16 sid

/-- A write of SRESUME: a stream, or every stream. -/
def sresumeWrite (s : State) (a : RegAt) (off len : Nat) (v : W64) (x : Attr) : State :=
  let s := levelWrite s a x
  let w := inputWord off len v
  if acts a off len x 16 ∧ bitAt w 16 then setHalted s a.n []
  else if acts a off len x 0 then setHalted s a.n ((s.rc a.n).halted.filter (· != fld w 0 16))
  else s

/-! ## IDE (R448, R449) -/

/-- A write of IDECTLs: KEYREQ while EN is 0 requests new keys; EN = 1 has no effect while KEYRDY is 0. -/
def idectlWrite (s : State) (a : RegAt) (off len : Nat) (v : W64) (x : Attr) : State :=
  let s := levelWrite s a x
  let old := s.reg .rcIdectl a.n a.k 0
  let w := setBit (newValue s a off len v x) 12 false
  let w := if bitAt w 0 ∧ ¬ bitAt old 0 ∧ ¬ bitAt old 13 then setBit w 0 false else w
  if asserted a off len v x 12 ∧ ¬ bitAt old 0 then
    let r := s.rc a.n
    let s := s.setRc a.n { r with keyReq := if r.keyReq.contains a.k then r.keyReq else r.keyReq ++ [a.k], keys := del r.keys a.k }
    s.setReg .rcIdectl a.n a.k 0 (setBit (setBit w 13 false) 0 false)
  else s.setReg .rcIdectl a.n a.k 0 w

/-- A read of KEYOUT: the next of the eight words, then zero. -/
def keyoutReadAt (s : State) (a : RegAt) (off len : Nat) (x : Attr) : State × W64 :=
  if attrLevel x < a.d.level then (deny s a.d a.n, 0)
  else if ¬ attrSec x then (s, 0)
  else
    let r := s.rc a.n
    match lookD [] r.keys a.k with
    | [] => (s, 0)
    | w :: t => (s.setRc a.n { r with keys := put r.keys a.k t }, sliceBytes w off len)

/-- KEYRDY: Wicket draws two keys from its DRBG and loads them. -/
def keysLoaded (s : State) (k i : Nat) : State :=
  let r := s.rc k
  if ¬ r.keyReq.contains i then s
  else
    let tx := Config.drbg s.free
    let rx := Config.drbg (s.free + 1)
    let words (w : BitVec 256) : List W64 := (List.range 4).map (fun j => (w >>> (64 * j)).setWidth 64)
    let s := s.useFree.useFree
    let s := s.setRc k { s.rc k with keyReq := r.keyReq.filter (· != i), keys := put r.keys i (words tx ++ words rx) }
    s.setRegF .rcIdectl k i 0 13 1 1

/-! ## Check units (R395) -/

/-- One unit of RC[k] sees an inbound write of bytes from `addr`. -/
def checkUnit (s : State) (k u sid : Nat) (addr : Nat) (data : List Byte) (en : List Bool) (poisoned : Bool) : State :=
  let cfg := s.reg .rcCkucfg k u 0
  let next := (s.reg .rcCkunext k u 0).toNat
  let fin := (s.reg .rcCkuend k u 0).toNat
  if ¬ bitAt cfg 0 ∨ fld cfg 16 16 ≠ sid ∨ ¬ (addr < fin ∧ next < addr + data.length ∧ next < fin) then s
  else
    let n := min data.length (fin - addr)
    if addr = next ∧ ¬ poisoned ∧ (en.take n).all id ∧ n ≤ en.length then
      let r := crcBytes ((s.reg .rcCkurunv k u 0).setWidth 32) (data.take n)
      let s := (s.setReg .rcCkurunv k u 0 (r.setWidth 64)).setReg .rcCkunext k u 0 (BitVec.ofNat 64 (next + n))
      if next + n = fin then s.setReg .rcCkucfg k u 0 (setBit cfg 0 false) else s
    else s.setReg .rcCkucfg k u 0 (setBit cfg 1 true)

end Sys2Proof.Machine
end

