-- ==== Sys2Proof/Machine/RegMap.lean ====
section
/-! DEFINITION. Reads and writes of the on-chip register region, with what each register does (R9, R259, R492). -/

namespace Sys2Proof.Machine

/-! ## CTL (R260) -/

/-- ERRCODE of the interrupt router: VBASE outside DRAM and the vault (R463). -/
def irtError (s : State) : Nat :=
  let pa := s.regF .irtVbase 0 0 0 12 40 * 4096
  if regionOf pa = .vault ∨ (regionOf pa = .dram ∧ populated s pa) then 0 else 1

/-- RUN written 1 in a block. -/
def startBlock (s : State) (b : Block) : State :=
  match b with
  | .mc n => mcRun s n n.isLt
  | .vlt _ => lapBegin (setRun s b 0) b
  | .oec k => setRun s b (oecError s k)
  | .rc k => setRun s b (rcError s k)
  | .irt =>
    let s' := setRun s b (irtError s)
    if blockRuns s' b ∧ ¬ blockRuns s b then resumeRouter s' else s'

/-- A write of CTL: REFUSED clears by 1, then RUN takes its new value. -/
def ctlWrite (s : State) (b : Block) (a : RegAt) (off len : Nat) (v : W64) (x : Attr) : State :=
  let s := levelWrite s a x
  let old := s.reg a.d.id a.n 0 0
  let s := s.setReg a.d.id a.n 0 0 (fieldsWritten a.d old v off len x (fun f => f.lo == 1))
  if ¬ touches a off len x 0 then s
  else if bitAt (inputWord off len v) 0 then startBlock s b
  else
    let s := clearRun s b x
    if b = .irt ∧ ¬ blockRuns s b then recallAll s else s

/-! ## Registers with an owner or channel of their own -/

/-- A register whose RW, W1S and W1C fields are S-prefixed and reached at PL3. -/
def RegDef.secured (d : RegDef) : RegDef :=
  { d with level := 3, wlevel := 3, fields := d.fields.map (fun f => { f with sec := decide (f.acc ≠ .ro) }) }

/-- A register that only secure PL3 reaches, whole. -/
def RegDef.hidden (d : RegDef) : RegDef :=
  { d with level := 3, wlevel := 3, fields := d.fields.map (fun f => { f with sec := true }) }

/-- The register as it stands for its index: OCAP and ENERGY of owner 1 (R415, R416), and mailbox channel 1 (R374). -/
def RegAt.actual (a : RegAt) : RegAt :=
  match a.d.id with
  | .lvOcap | .lvEnergy => if a.k = 1 then { a with d := a.d.hidden } else a
  | .wkMbaddr | .wkMbcmd | .wkMbstat => if a.k = 1 then { a with d := a.d.secured } else a
  | _ => a

/-! ## LLC and vault ports, with their broadcast copies (R241, R243, R259) -/

/-- A read through instance 96 returns instance 0's value. -/
def broadRead (s : State) (a : RegAt) (off len : Nat) (x : Attr) : State × W64 :=
  if a.n = 96 then
    let s := if attrLevel x < a.d.level then deny s a.d a.n else s
    (s, sliceBytes (openBits a.d (s.reg a.d.id 0 a.k 0) x) off len)
  else plainRead s a off len x

/-- A write through instance 96 is made in every instance. -/
def broadWrite (s : State) (a : RegAt) (x : Attr) (one : State → RegAt → State) : State :=
  let s := levelWrite s a x
  if attrLevel x < a.d.wlevel then s
  else if a.n = 96 then (List.range 96).foldl (fun s n => one s { a with n := n }) s
  else one s a

/-- LOCK of one slice: refused with more than 12 ways locked, or with the fill window open on a locked way; a window that opens
begins with no line placed. The lines of a way unlocked take the least recently used position (R244). -/
def lockWrite (off len : Nat) (v : W64) (x : Attr) (s : State) (a : RegAt) : State :=
  let old := s.reg .llcLock a.n 0 0
  let w := newValue s a off len v x
  if 12 < popc (w &&& 0xFFFF) ∨ (bitAt w 20 ∧ bitAt w (fld w 16 4)) then
    (s.setReg .llcLock a.n 0 0 (setBit old 21 true)).bump .llcEvcnt a.n 0 0 48 16 1
  else
    let s := s.setReg .llcLock a.n 0 0 w
    let s := { s with llc := s.llc.map (fun (p : Nat × LlcWay) =>
      if p.1 / 32768 = a.n ∧ bitAt old (p.1 % 16) ∧ ¬ bitAt w (p.1 % 16) then (p.1, { p.2 with lru := true }) else p) }
    if bitAt w 20 ∧ ¬ bitAt old 20 then
      { s with llc := s.llc.map (fun (p : Nat × LlcWay) => if p.1 / 32768 = a.n then (p.1, { p.2 with placed := false }) else p) }
    else s

/-- A register of one slice or port that only holds values. -/
def holdWrite (off len : Nat) (v : W64) (x : Attr) (s : State) (a : RegAt) : State :=
  s.setReg a.d.id a.n a.k a.j (newValue s a off len v x)

/-- SCRUBCFG of a vault port or controller: a lap may begin (R318). -/
def scrubWrite (b : Option Block) (off len : Nat) (v : W64) (x : Attr) (s : State) (a : RegAt) : State :=
  let s := holdWrite off len v x s a
  match b with
  | some b => lapBegin s b
  | none => if h : a.n < 96 then lapBegin s (.vlt ⟨a.n, h⟩) else s

/-! ## Wicket, watchdogs, worlds, Louvre -/

/-- HEALTH: from the secure world at PL3 alone; clearing TRAINFAIL clears LANE (R300). -/
def healthWrite (s : State) (a : RegAt) (off len : Nat) (v : W64) (x : Attr) : State :=
  if attrLevel x < 3 ∨ ¬ attrSec x then deny s a.d a.n
  else
    let w := newValue s a off len v x
    s.setReg .mcHealth a.n 0 0 (if asserted a off len v x 0 then setFld w 8 5 0 else w)

/-- MBADDR and MBCMD: nothing while BUSY; GO sets BUSY (R374). -/
def mailboxWrite (s : State) (a : RegAt) (off len : Nat) (v : W64) (x : Attr) : State :=
  if bitAt (s.reg .wkMbstat 0 a.k 0) 0 then levelWrite s a x
  else
    let go : Bool := decide (a.d.id = .wkMbcmd) && asserted a off len v x 8
    let s := plainWrite s a off len v x
    if go then s.setRegF .wkMbstat 0 a.k 0 0 1 1 else s

/-- TBASE and TPAGES: fixed once TLOCK is 1 (R325). -/
def tableWrite (s : State) (a : RegAt) (off len : Nat) (v : W64) (x : Attr) : State :=
  if tableLocked s then levelWrite s a x else plainWrite s a off len v x

/-- SWDCTL: PERIOD is fixed while RUN is 1; RUN becoming 1 loads PERIOD (R342). -/
def swdctlWrite (s : State) (a : RegAt) (off len : Nat) (v : W64) (x : Attr) : State :=
  let s := levelWrite s a x
  let old := s.reg .ownSwdctl 0 0 0
  let w := fieldsWritten a.d old v off len x (fun f => !(bitAt old 0 && f.lo == 16))
  let s := s.setReg .ownSwdctl 0 0 0 w
  if ¬ bitAt old 0 ∧ bitAt w 0 then swdLoad s else s

/-- A write of 0x5A to SWDKICK. -/
def swdkickWrite (s : State) (a : RegAt) (off len : Nat) (v : W64) (x : Attr) : State :=
  let s := levelWrite s a x
  if acts a off len x 0 ∧ fld (inputWord off len v) 0 8 = 0x5A then swdLoad s else s

/-- PREQ of a core: its target level changes (R408). -/
def preqWriteAt (s : State) (a : RegAt) (off len : Nat) (v : W64) (x : Attr) : State :=
  retarget (plainWrite s a off len v x) a.k

/-- PREQSELF is the PREQ of the core that issues the access (R408). -/
def selfOf (a : RegAt) (x : Attr) : Option RegAt :=
  match x.core, defOf .lvPreq with
  | some c, some d => some ⟨{ d with level := a.d.level, wlevel := a.d.wlevel }, 0, c.val, 0⟩
  | _, _ => none

/-- A read of PSTATc: what the core does now (R408). -/
def pstatRead (s : State) (a : RegAt) (off len : Nat) (x : Attr) : State × W64 :=
  let s' := if attrLevel x < a.d.level then deny s a.d a.n else s
  (s', sliceBytes (openBits a.d (pstat s a.k) x) off len)

/-! ## The region -/

/-- The block whose CTL a register is. -/
def ctlBlock (i : RegId) (n : Nat) : Option Block :=
  match i with
  | .mcCtl => if h : n < 16 then some (.mc ⟨n, h⟩) else none
  | .vltCtl => if h : n < 96 then some (.vlt ⟨n, h⟩) else none
  | .oecCtl => if h : n < 4 then some (.oec ⟨n, h⟩) else none
  | .rcCtl => if h : n < 8 then some (.rc ⟨n, h⟩) else none
  | .irtCtl => some .irt
  | _ => none

/-- The block a held setting belongs to; a controller's map is MC[0]'s. -/
def heldBlock (i : RegId) (n : Nat) : Option Block :=
  match i with
  | .mcDimmcfg | .mcMapcfg | .mcMap | .mcCrmask => if h : n < 16 then some (.mc ⟨n, h⟩) else none
  | .oecCfg => if h : n < 4 then some (.oec ⟨n, h⟩) else none
  | .rcCfg | .rcIocfg | .rcIoctxlim | .rcHdmlo | .rcHdmhi => if h : n < 8 then some (.rc ⟨n, h⟩) else none
  | .irtDbaddr | .irtVbase => some .irt
  | _ => none

/-- A read of a register that exists. -/
def readAt (s : State) (a : RegAt) (off len : Nat) (x : Attr) : State × W64 :=
  match a.d.id with
  | .irtSrc => srcRead s a off len x
  | .meshLinkstat => linkstatRead s a off len x
  | .mcElogd | .meshElogd => elogdRead s a off len x
  | .rcPortstat => portstatRead s a off len x
  | .rcIdekeyout => keyoutReadAt s a off len x
  | .llcWaymask | .llcLock | .vltScrubcfg => broadRead s a off len x
  | .lvPstat => pstatRead s a off len x
  | .lvPreqself => match selfOf a x with
    | some a' => plainRead s a' off len x
    | none => (s, 0)
  | _ => plainRead s a off len x

/-- A write of a register that exists. -/
def writeAt (s : State) (a : RegAt) (off len : Nat) (v : W64) (x : Attr) : State :=
  match ctlBlock a.d.id a.n, heldBlock a.d.id a.n with
  | some b, _ => ctlWrite s b a off len v x
  | none, some b => heldWrite s b a off len v x
  | none, none =>
    match a.d.id with
    | .irtSrc => srcWrite s a off len v x
    | .irtSwint => swintWrite s a off len v x
    | .irtNwdctl => nwdctlWrite s a off len v x
    | .irtNwdkick => nwdkickWrite s a off len v x
    | .meshClkcfg => clkcfgWrite s a off len v x
    | .meshMemreg => memregWrite s a off len v x
    | .meshWin => winWrite s a off len v x
    | .pmWincfg => wincfgWrite s a off len v x
    | .mcElogptr | .meshElogptr => elogptrWrite s a off len v x
    | .mcBaddev => baddevWriteAt s a off len v x
    | .mcRemap => mcRemapWrite s a off len v x
    | .vltRemap => vltRemapWrite s a off len v x
    | .mcHealth => healthWrite s a off len v x
    | .mcScrubcfg => scrubWrite (if h : a.n < 16 then some (.mc ⟨a.n, h⟩) else none) off len v x (levelWrite s a x) a
    | .vltScrubcfg => broadWrite s a x (scrubWrite none off len v x)
    | .llcLock => broadWrite s a x (lockWrite off len v x)
    | .llcWaymask => broadWrite s a x (holdWrite off len v x)
    | .oecIocfg | .oecIoctxlim => oecIoWrite s a off len v x
    | .oecIoinv => invWrite s a off len v x (fun s => ioDrop s (.oec a.n))
    | .oecVictl => victlWrite s a off len v x
    | .oecVicfg => viSetupWrite s a off len v x (fun lo => lo == 32)
    | .oecVictx | .oecViown | .oecViring => viSetupWrite s a off len v x (fun _ => false)
    | .rcIoinv => invWrite s a off len v x (fun s => ioDrop s (.rc a.n))
    | .rcSowninv => invWrite s a off len v x (fun s => sownDrop s a.n)
    | .rcPortctl => portctlWrite s a off len v x
    | .rcSresume => sresumeWrite s a off len v x
    | .rcIdectl => idectlWrite s a off len v x
    | .lvBlkpwr => blkpwrWriteAt s a off len v x
    | .lvCorestart => corestartWriteAt s a off len v x
    | .lvTilerst => tilerstWrite s a off len v x
    | .lvPreq => preqWriteAt s a off len v x
    | .lvPreqself => match selfOf a x with
      | some a' => preqWriteAt s a' off len v x
      | none => s
    | .wkMbaddr | .wkMbcmd => mailboxWrite s a off len v x
    | .ownTbase | .ownTpages => tableWrite s a off len v x
    | .ownSwdctl => swdctlWrite s a off len v x
    | .ownSwdkick => swdkickWrite s a off len v x
    | _ => plainWrite s a off len v x

/-- A read of `len` bytes at an address of the region. An unassigned address reads as zero (R9). -/
def regRead (s : State) (pa len : Nat) (x : Attr) : State × W64 :=
  match portalAt pa with
  | some (k, v, o) => portalRead s k v o len x
  | none =>
    match regAt (pa / 8 * 8) with
    | none => (s, 0)
    | some a => readAt s a.actual (pa % 8) len x

/-- A write of the low `len` bytes of `v` at an address of the region. -/
def regWrite (s : State) (pa len : Nat) (v : W64) (x : Attr) : State :=
  match portalAt pa with
  | some (k, i, o) => portalWrite s k i o none x
  | none =>
    match regAt (pa / 8 * 8) with
    | none => s
    | some a => writeAt s a.actual (pa % 8) len v x

/-- An ST64 to the region (R398, R492). -/
def regWrite64 (s : State) (pa : Nat) (d : W512) (x : Attr) : State :=
  match portalAt pa with
  | some (k, i, o) => portalWrite s k i o (some d) x
  | none => (List.range 8).foldl (fun s i => regWrite s (pa + 8 * i) 8 ((d >>> (64 * i)).setWidth 64) x) s

end Sys2Proof.Machine
end

