-- ==== Sys2Proof/Machine/Access.lean ====
section
/-! DEFINITION. Memory accesses of a core (R69-R77, R88-R96, R168-R178, R328-R331): the store buffer and forwarding, loads, stores,
split accesses, atomics, device accesses, and the fetch of an instruction. -/

namespace Sys2Proof.Machine

/-- The attributes of a core's accesses (R254). -/
def coreAttr (s : State) (c : Nat) : Attr :=
  let k := s.core c
  { secure := k.secure, owner := k.owner, priv := BitVec.ofNat 3 k.pl, core := if h : c < 192 then some ⟨c, h⟩ else none,
    qos := BitVec.ofNat 6 (qosOf s c) }

/-- OWNERSHIP (R329). -/
def ownExc (va : W64) (k : AccKind) (f : Nat × Nat) : Exc := accExc 0x10 2 va k (f.1 + f.2 * 16) 0

/-- DATA_POISON, with its record (R307). -/
def poisonLoad (s : State) (c pa owner : Nat) (vec : Bool) : State :=
  s.logErr .consumed 0 c 0x30 pa owner (b2w vec)
def poisonExc (va : W64) : Exc := Exc.plain 0x12 2 va 0

/-! ## Draining the store buffer -/

/-- The new value of an atomic (R93); none where CAS fails. -/
def atNew (fn : AtFn) (dword : Bool) (old b cmp : W64) : Option W64 :=
  let n (x : W64) : W64 := if dword then x else zx 32 x
  let sg (x : W64) : Int := if dword then x.toInt else (x.setWidth 32).toInt
  match fn with
  | .swap => some (n b)
  | .cas => if n old = n cmp then some (n b) else none
  | .add => some (n (old + b))
  | .and => some (n (old &&& b))
  | .or => some (n (old ||| b))
  | .xor => some (n (old ^^^ b))
  | .smax => some (if sg old ≤ sg b then n b else n old)
  | .smin => some (if sg old ≤ sg b then n old else n b)
  | .umax => some (if (n old).toNat ≤ (n b).toNat then n b else n old)
  | .umin => some (if (n old).toNat ≤ (n b).toNat then n old else n b)

/-- Data placed at its byte offset within a line. -/
def atOffset (d : W512) (off : Nat) : W512 := d <<< (8 * off)

/-- Bytes written to a write-back line by the core that holds, or first takes, the line. -/
def drainBytes (s : State) (c : Nat) (e : SbEnt) : State :=
  let line := e.pa / 64
  match coreOwn s c line e.who with
  | (s, .error _) => lateWrite s e.pa e.who.owner
  | (s, .ok _) => writeHeld s c line (atOffset e.data (e.pa % 64)) (enables (e.pa % 64) e.len) 0

/-- A whole line written (R104, R230, R240, R246): by a full-line store in place where it is held, by WriteFull for a stream past its
16th, else, and for every DCZ, by ClaimLine. -/
def drainLine (s : State) (c : Nat) (e : SbEnt) (stream : Bool) : State :=
  let line := e.pa / 64
  let (k, past) := if stream then streamNext (s.core c) line else (s.core c, false)
  let s := missL1 (s.setCore c k) c line .d e.who
  let held : Bool := match l2Of s c line with
    | some x => decide (x.st = .m ∨ x.st = .e)
    | none => false
  let hit := (coreHit s c line e.who).isSome
  let req : Req := if hit ∧ stream then .upgrade else if past then .writeFull e.data 0 else .claim
  if held ∧ hit ∧ stream then writeHeld (touchL1 s c line .d) c line e.data (2 ^ 64 - 1) 0
  else
    match homeRequest s c line e.who req .d with
    | (s, .error _) => lateWrite s e.pa e.who.owner
    | (s, .ok _) =>
      match req with
      | .writeFull _ _ => s
      | _ => writeHeld (touchL1 s c line .d) c line e.data (2 ^ 64 - 1) 0

/-- A posted atomic (R95, R307): near on write-back pages with F = 0, else at the home. -/
def drainAtomic (s : State) (c : Nat) (e : SbEnt) (fn : AtFn) (dword far : Bool) (b : W64) : State :=
  let line := e.pa / 64
  let off := e.pa % 64
  let len := if dword then 8 else 4
  let bad (s : State) (owner : Nat) : State := s.logErr .deferred 0 c 0x35 e.pa owner 0
  if decide (e.mt = .wb) ∧ ¬ far then
    match coreOwn s c line e.who with
    | (s, .error _) => lateWrite s e.pa e.who.owner
    | (s, .ok x) =>
      if x.poison &&& wordsOf (enables off len) != 0 then bad s (recOwner s x.entry)
      else
        let old : W64 := sliceBytes ((x.data >>> (8 * (off / 8 * 8))).setWidth 64) (off % 8) len
        match atNew fn dword old b 0 with
        | some v => writeHeld s c line (atOffset (v.setWidth 512) off) (enables off len) 0
        | none => s
  else
    match homeAtomic (chargeAccess s (c / 2) line e.who.qos) line e.who.secure e.who.owner off len (fun old => atNew fn dword old b 0) with
    | (s, .error _) => lateWrite s e.pa e.who.owner
    | (s, .ok none) => bad s (pageOwner s line)
    | (s, .ok (some _)) => s

/-- One entry takes effect (R168, R212). -/
def drainEntry (s : State) (c : Nat) (e : SbEnt) : State :=
  let x : Attr := { coreAttr s c with secure := e.who.secure, owner := BitVec.ofNat 12 e.who.owner, priv := BitVec.ofNat 3 e.who.pl,
                                      qos := BitVec.ofNat 6 e.who.qos }
  let s := if decide (e.kind = .line) && decide (e.mt = .wb) then s else s.onCore c streamsEnd
  match regionAt e.pa with
  | .regs =>
    match e.kind with
    | .line => regWrite64 s e.pa e.data x
    | _ => regWrite s e.pa e.len (e.data.setWidth 64) x
  | .pcie k => (memAccess s k (e.pa % 2 ^ 45) true).1
  | .dram | .cxl | .vault =>
    match e.kind with
    | .atomic fn dword far b => drainAtomic s c e fn dword far b
    | .bytes =>
      if e.mt = .wb then drainBytes s c e
      else match homeWrite (chargeAccess s (c / 2) (e.pa / 64) e.who.qos) (e.pa / 64) e.who.secure e.who.owner (atOffset e.data (e.pa % 64)) (enables (e.pa % 64) e.len) 0 with
        | (s, .error _) => lateWrite s e.pa e.who.owner
        | (s, .ok _) => s
    | .line =>
      if e.mt = .wb then drainLine s c e true
      else match homeWrite (chargeAccess s (c / 2) (e.pa / 64) e.who.qos) (e.pa / 64) e.who.secure e.who.owner e.data (2 ^ 64 - 1) 0 with
        | (s, .error _) => lateWrite s e.pa e.who.owner
        | (s, .ok _) => s
    | .zero =>
      if e.mt = .wb then drainLine s c e false
      else match homeWrite (chargeAccess s (c / 2) (e.pa / 64) e.who.qos) (e.pa / 64) e.who.secure e.who.owner 0 (2 ^ 64 - 1) 0 with
        | (s, .error _) => lateWrite s e.pa e.who.owner
        | (s, .ok _) =>
          if e.mt = .wt then (coreRead s c (e.pa / 64) .d e.who).1 else s
  | _ => s

/-- The oldest entry drains. -/
def drainStore (s : State) (c : Nat) : State :=
  match (s.core c).sb with
  | [] => s
  | e :: rest => drainEntry (s.onCore c (fun k => { k with sb := rest })) c e

/-- The oldest `n` entries drain. -/
def drainN : Nat → State → Nat → State
  | 0, s, _ => s
  | n + 1, s, c => drainN n (drainStore s c) c

/-- Every entry drains. -/
def drainAll (s : State) (c : Nat) : State := drainN (s.core c).sb.length s c

/-- The buffer drains up to the last entry that `p` holds of. -/
def drainThrough (s : State) (c : Nat) (p : SbEnt → Bool) : State :=
  let b := (s.core c).sb
  drainN (b.length - (b.reverse.takeWhile (fun e => !p e)).length) s c

/-! ## Loads -/

/-- How one part of a load ends. -/
inductive Read
  | val (v : W64)
  | fails (e : Exc)
  | waits
  | left (k p : Nat) (pa : Nat) (cfg : Bool)
deriving DecidableEq, Repr

def SbEnt.overlaps (e : SbEnt) (pa len : Nat) : Bool := e.pa < pa + len && pa < e.pa + e.len

/-- The bytes an entry forwards (R169): it must cover the load; a posted atomic never forwards. -/
def SbEnt.forward (e : SbEnt) (pa len : Nat) : Option W64 :=
  if e.pa ≤ pa ∧ pa + len ≤ e.pa + e.len then
    match e.kind with
    | .bytes | .line | .zero => some (sliceBytes ((e.data >>> (8 * (pa - e.pa))).setWidth 64) 0 len)
    | .atomic _ _ _ _ => none
  else none

/-- Bytes of a line as a value of at most 8 bytes, or none where one of their words is poisoned. -/
def lineBytes (x : CLine) (off len : Nat) : Option W64 :=
  if x.poison &&& wordsOf (enables off len) != 0 then none
  else some (sliceBytes ((x.data >>> (8 * off)).setWidth 64) 0 len)

/-- A load of bytes within one line of memory (R169, R212, R307, R328). -/
def memLoad (s : State) (c : Nat) (va : W64) (k : AccKind) (x : Xlat) (len : Nat) : State × Read :=
  let q := s.core c
  match (q.sb.filter (fun e => e.overlaps x.pa len)).getLast? with
  | some e =>
    match e.forward x.pa len with
    | some v => (s, .val v)
    | none => (s.event c 0x018 1, .waits)
  | none =>
    let line := x.pa / 64
    let s := s.onCore c (fun k => streamTouched k line)
    let got := if x.mt = .wb ∨ x.mt = .wt then coreRead s c line .d (identOf s c)
      else homeRead (chargeAccess s (c / 2) line (qosOf s c)) line q.secure q.owner.toNat
    match got with
    | (s, .error f) => (s, .fails (ownExc va k f))
    | (s, .ok y) =>
      match lineBytes y (x.pa % 64) len with
      | some v => (s, .val v)
      | none => (poisonLoad s c (firstPoison line y.poison (x.pa % 64) len) (recOwner s y.entry) (decide (k = .vload)), .fails { poisonExc va with vec := decide (k = .vload) })

/-- Earlier accesses that a Device access waits for (R75): all of them for Device-S, earlier Device ones for Device-P. -/
def deviceOrder (s : State) (c : Nat) (mt : MType) : State :=
  match mt with
  | .devS => drainAll s c
  | .devP => drainThrough s c (fun e => e.mt.device)
  | _ => s

/-- A load of one part at its physical address. -/
def loadAt (s : State) (c : Nat) (va : W64) (k : AccKind) (x : Xlat) (len : Nat) : State × Read :=
  let s := deviceOrder s c x.mt
  match regionAt x.pa with
  | .regs =>
    let (s, v) := regRead s x.pa len (coreAttr s c)
    (s, .val v)
  | .pcie n =>
    match memAccess s n (x.pa % 2 ^ 45) false with
    | (s, .sent n p) => (s, .left n p x.pa false)
    | (s, .abort kind n p) => (s, .fails (ioAbort va false kind n p))
    | (s, .value v) => (s, .val v)
  | .ecam n =>
    match cfgAccess s n (x.pa % 2 ^ 28) len false 0 with
    | (s, .sent n p) => (s, .left n p x.pa true)
    | (s, .abort kind n p) => (s, .fails (ioAbort va false kind n p))
    | (s, .value v) => (s, .val v)
  | _ => memLoad s c va k x len

/-- Translation and load of one part (R174). `aligned` is false for a part of a split access. -/
def loadPart (s : State) (c : Nat) (va : W64) (k : AccKind) (len : Nat) (aligned : Bool) : State × Read :=
  match translate s c va k aligned with
  | (s, .error e) => (s, .fails e)
  | (s, .ok x) => loadAt s c va k x len

/-- A load of 1 to 8 bytes, split at a line boundary (R90, R174-R176): every cause of the second part comes after those of the first
(R67), and where the second lies on a Device page and the first has no cause, neither is accessed (DEDUCED, log 110). -/
def load (s : State) (c : Nat) (va : W64) (k : AccKind) (len : Nat) : State × Read :=
  let off := va.toNat % 64
  if off + len ≤ 64 then loadPart s c va k len (va.toNat % len == 0)
  else
    let n1 := 64 - off
    let va2 := va + BitVec.ofNat 64 n1
    match translate s c va k false with
    | (s, .error e) => (s, .fails e)
    | (s, .ok x1) =>
      match translate s c va2 k false with
      | (s, .error e) =>
        match loadAt s c va k x1 n1 with
        | (t, .fails e1) => (t, .fails e1)
        | (t, .val _) => (if e.code = 0x03 then s else t, .fails e)
        | r => if e.code = 0x03 then (s, .fails e) else r
      | (s, .ok x2) =>
        match loadAt s c va k x1 n1 with
        | (s, .val v1) =>
          match loadAt s c va2 k x2 (len - n1) with
          | (s, .val v2) => (s, .val (v1 ||| (v2 <<< (8 * n1))))
          | r => r
        | r => r

/-! ## Stores -/

/-- How a store ends: in the buffer or performed, a fault, or sent out as a non-posted write. -/
inductive Wrote
  | done
  | fails (e : Exc)
  | left (k p : Nat) (pa : Nat)
deriving DecidableEq, Repr

/-- A passing check for a retiring store (R330): a copy that passes, or an ownership probe. -/
def storeCheck (s : State) (c : Nat) (va : W64) (k : AccKind) (x : Xlat) : State × Option Exc :=
  let q := s.core c
  let line := x.pa / 64
  if ¬ (regionAt x.pa).memory then (s, none)
  else if (x.mt = .wb ∨ x.mt = .wt) ∧ (coreHit s c line (identOf s c)).isSome ∧ ¬ inTable s x.pa then (s, none)
  else
    match homeCheck s line q.secure q.owner.toNat true with
    | (s, .error f) => (s, some (ownExc va k f))
    | (s, .ok _) => (s, none)

/-- A store enters the store buffer of 128 entries (R168). -/
def pushStore (s : State) (c : Nat) (e : SbEnt) : State :=
  let s := if (s.core c).sb.length < 128 then s else drainStore s c
  s.onCore c (fun k => { k with sb := k.sb ++ [e] })

/-- A checked store is performed: Device-S at once and in order, a configuration write non-posted
and a releasing one after every earlier access (R71), a write of TILERST at once, so that none of its core retires after a reset of its
tile (R480), every other from the buffer. -/
def performStore (s : State) (c : Nat) (va : W64) (x : Xlat) (len : Nat) (d : W512) (kind : StKind) (pair rel : Bool) :
    State × Wrote :=
  let e : SbEnt := ⟨x.pa, len, d, kind, x.mt, pair, rel, identOf s c⟩
  match regionAt x.pa with
  | .ecam n =>
    let s := (if rel then drainAll s c else deviceOrder s c x.mt).onCore c streamsEnd
    match cfgAccess s n (x.pa % 2 ^ 28) len true d with
    | (s, .sent n p) => (s, .left n p x.pa)
    | (s, .abort kind n p) => (s, .fails (ioAbort va true kind n p))
    | (s, .value _) => (s, .done)
  | _ =>
    if x.mt = .devS then (drainEntry (deviceOrder s c .devS) c e, .done)
    else if x.pa / 8 * 8 = regAddr .lvTilerst 0 0 0 then (drainEntry (drainAll s c) c e, .done)
    else (pushStore s c e, .done)

/-- One part translated and checked. -/
def storePart (s : State) (c : Nat) (va : W64) (k : AccKind) (aligned : Bool) : State × Except Exc Xlat :=
  match translate s c va k aligned with
  | (s, .error e) => (s, .error e)
  | (s, .ok x) =>
    match storeCheck s c va k x with
    | (s, some e) => (s, .error e)
    | (s, none) => (s, .ok x)

/-- A store of 1 to 8 bytes, split at a line boundary; both parts are checked before either is written (R175, R178). -/
def storeTo (s : State) (c : Nat) (va : W64) (k : AccKind) (len : Nat) (d : W64) (rel : Bool) : State × Wrote :=
  let off := va.toNat % 64
  if off + len ≤ 64 then
    match storePart s c va k (va.toNat % len == 0) with
    | (s, .error e) => (s, .fails e)
    | (s, .ok x) => performStore s c va x len ((sliceBytes d 0 len).setWidth 512) .bytes false rel
  else
    let n1 := 64 - off
    let va2 := va + BitVec.ofNat 64 n1
    match storePart s c va k false with
    | (s, .error e) => (s, .fails e)
    | (s, .ok x1) =>
      match storePart s c va2 k false with
      | (s, .error e) => (s, .fails e)
      | (s, .ok x2) =>
        let s := (performStore s c va x1 n1 ((sliceBytes d 0 n1).setWidth 512) .bytes true rel).1
        performStore s c va2 x2 (len - n1) ((sliceBytes d n1 (len - n1)).setWidth 512) .bytes false rel

/-- A whole aligned line stored (ST64) or zeroed (DCZ). -/
def storeLine (s : State) (c : Nat) (va : W64) (k : AccKind) (d : W512) (kind : StKind) : State × Wrote :=
  match storePart s c va k true with
  | (s, .error e) => (s, .fails e)
  | (s, .ok x) => performStore s c va { x with pa := x.pa / 64 * 64 } 64 d kind false false

/-! ## Atomics -/

/-- How an atomic ends: with the old value, or a fault. -/
inductive AtEnd
  | old (v : W64)
  | posted
  | fails (e : Exc)
deriving DecidableEq, Repr

/-- A non-posted atomic at its physical address (R93, R95, R173): near on write-back pages with F = 0, else at the home. -/
def atomicDo (s : State) (c : Nat) (va : W64) (x : Xlat) (fn : AtFn) (dword far rel : Bool) (b cmp : W64) : State × AtEnd :=
  let len := if dword then 8 else 4
  let q := s.core c
  let line := x.pa / 64
  let off := x.pa % 64
  let s := (if rel then drainAll s c else drainThrough s c (fun e => e.overlaps x.pa len)).onCore c streamsEnd
  let poisoned (s : State) (owner : Nat) : State × AtEnd :=
    (poisonLoad s c x.pa owner false, .fails { poisonExc va with write := true })
  if decide (x.mt = .wb) ∧ ¬ far then
    match coreOwn s c line (identOf s c) with
    | (s, .error f) => (s, .fails (ownExc va .atomic f))
    | (s, .ok y) =>
      match lineBytes y off len with
      | none => poisoned s (recOwner s y.entry)
      | some old =>
        match atNew fn dword old b cmp with
        | some v => (writeHeld s c line (atOffset (v.setWidth 512) off) (enables off len) 0, .old old)
        | none => (s, .old old)
  else
    match homeAtomic (chargeAccess s (c / 2) line (qosOf s c)) line q.secure q.owner.toNat off len (fun old => atNew fn dword old b cmp) with
    | (s, .error f) => (s, .fails (ownExc va .atomic f))
    | (s, .ok none) => poisoned s (pageOwner s line)
    | (s, .ok (some old)) => (s, .old old)

/-- An atomic (R92-R96, R173). Posted ones enter the store buffer. -/
def atomicAt (s : State) (c : Nat) (va : W64) (fn : AtFn) (dword far rel posted : Bool) (b cmp : W64) : State × AtEnd :=
  let len := if dword then 8 else 4
  if va.toNat % len ≠ 0 then (s, .fails (alignExc va true))
  else
    match storePart s c va .atomic true with
    | (s, .error e) => (s, .fails e)
    | (s, .ok x) =>
      if posted then
        (pushStore s c ⟨x.pa, len, 0, .atomic fn dword far b, x.mt, false, rel, identOf s c⟩, .posted)
      else atomicDo s c va x fn dword far rel b cmp

/-! ## Fetch -/

/-- The fetch of the instruction at the program counter (R67 step 2, R73, R211, R307): its caches and faults. -/
def fetch (s : State) (c : Nat) : State × Option Exc :=
  let q := s.core c
  match translate s c q.pc .fetch true with
  | (s, .error e) => (s, some e)
  | (s, .ok x) =>
    let line := x.pa / 64
    let s := s.onCore c (fun k => streamTouched k line)
    let got := if x.mt = .wb ∨ x.mt = .wt then coreRead s c line .i (identOf s c)
      else homeRead (chargeAccess s (c / 2) line (qosOf s c)) line q.secure q.owner.toNat
    match got with
    | (s, .error f) => (s, some (ownExc q.pc .fetch f))
    | (s, .ok y) =>
      if bitAt y.poison (x.pa % 64 / 8) then
        (s.logErr .consumed 0 c 0x31 x.pa (recOwner s y.entry) 0, some { Exc.plain 0x11 2 q.pc 0 with fetch := true })
      else (s, none)

end Sys2Proof.Machine
end

