-- ==== Sys2Proof/Machine/Encode.lean ====
section
/-! DEFINITION. Instruction words (R79): the word of each instruction, which CR.EADDR reports, and which words are assigned
(R81, R82). -/

namespace Sys2Proof

/-- Kinds of Table 5 of 03. -/
def Width.code : Width → Nat
  | .w8 => 0 | .w16 => 1 | .w32 => 2 | .w64 => 3


def LdKind.code : LdKind → Nat
  | .sb => 0 | .sh => 1 | .sw => 2 | .dw => 3 | .ub => 4 | .uh => 5 | .uw => 6


def CrcLen.code : CrcLen → Nat
  | .n1 => 0 | .n2 => 1 | .n4 => 2 | .n8 => 3


def FpTy.code : FpTy → Nat
  | .fp16 => 0 | .bf16 => 1 | .fp32 => 2 | .fp64 => 3


end Sys2Proof

namespace Sys2Proof.Machine

/-- A word from its major opcode and its low 25 bits. -/
def encW (major low : Nat) : W32 := BitVec.ofNat 32 (major * 2 ^ 25 + low % 2 ^ 25)

/-- R format. -/
def encR (major : Nat) (rd ra rb : RegNo) (func : Nat) : W32 :=
  encW major (rd.toNat * 2 ^ 20 + ra.toNat * 2 ^ 15 + rb.toNat * 2 ^ 10 + func % 2 ^ 10)

/-- I format. -/
def encI (major : Nat) (f : RI) : W32 := encW major (f.rd.toNat * 2 ^ 20 + f.ra.toNat * 2 ^ 15 + f.imm.toNat)

/-- U format. -/
def encU (major : Nat) (f : RU) : W32 := encW major (f.rd.toNat * 2 ^ 20 + f.imm.toNat)

/-- M format. -/
def encM (major kind : Nat) (f : RM) : W32 :=
  encW major (f.rd.toNat * 2 ^ 20 + f.ra.toNat * 2 ^ 15 + kind * 2 ^ 12 + f.imm.toNat)

/-- Shifts by immediate (R87). -/
def encSh (sel : Nat) (f : RSh) : W32 :=
  encW 0x09 (f.rd.toNat * 2 ^ 20 + f.ra.toNat * 2 ^ 15 + sel * 2 ^ 12 + f.sh.toNat)

/-- Atomics (R92). -/
def encAt (op : Nat) (f : AtF) : W32 :=
  encR 0x12 f.rd f.ra f.rb (op * 64 + b2n f.dword * 32 + b2n f.far * 16 + b2n f.aq * 8 + b2n f.rl * 4)

/-- B format (R97). -/
def encB (cond : Nat) (f : BF) : W32 :=
  encW 0x14 (f.rd.toNat * 2 ^ 20 + f.ra.toNat * 2 ^ 15 + cond * 2 ^ 12 + b2n f.d * 2 ^ 11 + b2n f.a * 2 ^ 10 + f.off.toNat)

/-- Z format (R97). -/
def encZ (cond : Nat) (f : ZF) : W32 :=
  encW 0x15 (f.rd.toNat * 2 ^ 20 + cond * 2 ^ 17 + b2n f.d * 2 ^ 16 + b2n f.a * 2 ^ 15 + f.off.toNat)

/-- V format (R138). -/
def encV (major func : Nat) (f : VF) : W32 :=
  encW major (f.vd.toNat * 2 ^ 20 + f.va.toNat * 2 ^ 15 + f.vb.toNat * 2 ^ 10 + b2n f.m * 2 ^ 9 + f.msk.toNat * 2 ^ 6 + func)

/-- V format with the scalar-operand major one above the vector one (Table 2 of 04). -/
def encVs (major func : Nat) (f : VF) : W32 := encV (major + b2n f.sc) func f

/-- Vector memory (R149). -/
def encVm (major mode : Nat) (f : VM) : W32 :=
  encW major (f.vd.toNat * 2 ^ 20 + f.ra.toNat * 2 ^ 15 + f.rb.toNat * 2 ^ 10 + b2n f.m * 2 ^ 9 + f.msk.toNat * 2 ^ 6
    + mode * 16 + f.iw.toNat * 4)

/-- func values of Table 3 of 03. -/
def opFunc : OpFn → Nat
  | .add => 0x000 | .sub => 0x001 | .and => 0x002 | .or => 0x003 | .xor => 0x004 | .andn => 0x005 | .orn => 0x006
  | .xnor => 0x007 | .sll => 0x008 | .srl => 0x009 | .sra => 0x00A | .ror => 0x00B | .slt => 0x00C | .sltu => 0x00D
  | .min => 0x00E | .max => 0x00F | .minu => 0x010 | .maxu => 0x011 | .cmovz => 0x012 | .cmovnz => 0x013 | .mul => 0x020
  | .mulxSs => 0x021 | .mulxUu => 0x022 | .mulxSu => 0x023 | .clz => 0x030 | .ctz => 0x031 | .popc => 0x032 | .rev8 => 0x033
  | .sextB => 0x034 | .sextH => 0x035 | .sextW => 0x036 | .zextW => 0x037

def divFunc : DivFn → Nat
  | .div => 0x024 | .divu => 0x025 | .rem => 0x026 | .remu => 0x027

/-- func values of R85. -/
def opwFunc : OpwFn → Nat
  | .addw => 0x000 | .subw => 0x001 | .sllw => 0x008 | .srlw => 0x009 | .sraw => 0x00A | .mulw => 0x020 | .divw => 0x024
  | .divuw => 0x025 | .remw => 0x026 | .remuw => 0x027

/-- The zero-extending load of a width. -/
def ldCodeZ : Width → Nat
  | .w8 => 4 | .w16 => 5 | .w32 => 6 | .w64 => 3

/-- func values of Table 6 of 04. -/
def fpFunc : FpFn → Nat
  | .add => 0x00 | .sub => 0x01 | .mul => 0x02 | .div => 0x03 | .sqrt => 0x04 | .min => 0x05 | .max => 0x06 | .sign => 0x07
  | .signN => 0x08 | .signX => 0x09 | .madd => 0x0A | .msub => 0x0B | .nmsub => 0x0C | .cvtXF => 0x0D | .cvtFX => 0x0E
  | .cvtXuF => 0x0F | .cvtFXu => 0x10

/-- func values of Table 7 of 04. -/
def decFunc : DecFn → Nat
  | .add => 0x00 | .sub => 0x01 | .mul => 0x02 | .div => 0x03 | .fma => 0x04 | .quant => 0x05 | .rint => 0x06 | .min => 0x07
  | .max => 0x08 | .cvtDI => 0x09 | .cvtID => 0x0A | .eq => 0x10 | .lt => 0x11 | .le => 0x12

/-- Kind of a floating access in major 0x0F, where byte width has none assigned. -/
def fpWidthCode : Width → Nat
  | .w8 => 3 | .w16 => 0 | .w32 => 1 | .w64 => 2

def atCode : AtFn → Nat
  | .swap => 0 | .cas => 1 | .add => 2 | .and => 3 | .or => 4 | .xor => 5 | .smax => 6 | .smin => 7 | .umax => 8 | .umin => 9

/-- The word of an instruction in flight (R88-R92). -/
def wordOfAccess : InFlight → W32
  | .load k f => encM 0x0D k.code f
  | .loadX k s f => encR 0x11 f.rd f.ra f.rb (s.toNat * 256 + k.code * 16)
  | .loadF wd f => encM 0x0F (fpWidthCode wd) f
  | .loadA wd f => encM 0x10 wd.code f
  | .store wd f => encM 0x0E wd.code f
  | .storeX wd s f => encR 0x11 f.rd f.ra f.rb (s.toNat * 256 + (8 + wd.code) * 16)
  | .storeF wd f => encM 0x0F (4 + fpWidthCode wd) f
  | .storeL wd f => encM 0x10 (4 + wd.code) f
  | .atomic fn f => encAt (atCode fn) f

/-- The word of an instruction; 0 for a command that is no instruction. -/
def wordOf (i : Instr) : W32 :=
  match i with
  | .op _ fn f => encR 0x01 f.rd f.ra f.rb (opFunc fn)
  | .div _ fn f => encR 0x01 f.rd f.ra f.rb (divFunc fn)
  | .opw _ fn f => encR 0x02 f.rd f.ra f.rb (opwFunc fn)
  | .addi _ f => encI 0x03 f
  | .andi _ f => encI 0x04 f
  | .ori _ f => encI 0x05 f
  | .xori _ f => encI 0x06 f
  | .slti _ f => encI 0x07 f
  | .sltiu _ f => encI 0x08 f
  | .addiw _ f => encI 0x0A f
  | .lui _ f => encU 0x0B f
  | .addpc _ f => encU 0x0C f
  | .slli _ f => encSh 0 f
  | .srli _ f => encSh 1 f
  | .srai _ f => encSh 2 f
  | .rori _ f => encSh 3 f
  | .slliw _ f => encSh 4 f
  | .srliw _ f => encSh 5 f
  | .sraiw _ f => encSh 6 f
  | .ldB _ f => encM 0x0D 0 f
  | .ldH _ f => encM 0x0D 1 f
  | .ldW _ f => encM 0x0D 2 f
  | .ld _ f => encM 0x0D 3 f
  | .ldBu _ f => encM 0x0D 4 f
  | .ldHu _ f => encM 0x0D 5 f
  | .ldWu _ f => encM 0x0D 6 f
  | .stB _ f => encM 0x0E 0 f
  | .stH _ f => encM 0x0E 1 f
  | .stW _ f => encM 0x0E 2 f
  | .st _ f => encM 0x0E 3 f
  | .fldH _ f => encM 0x0F 0 f
  | .fldW _ f => encM 0x0F 1 f
  | .fldD _ f => encM 0x0F 2 f
  | .fstH _ f => encM 0x0F 4 f
  | .fstW _ f => encM 0x0F 5 f
  | .fstD _ f => encM 0x0F 6 f
  | .lda _ wd f => encM 0x10 wd.code f
  | .stl _ wd f => encM 0x10 (4 + wd.code) f
  | .ldx _ k s f => encR 0x11 f.rd f.ra f.rb (s.toNat * 256 + k.code * 16)
  | .stx _ wd s f => encR 0x11 f.rd f.ra f.rb (s.toNat * 256 + (8 + wd.code) * 16)
  | .st64 _ vd ra imm => encR 0x13 vd ra 0 imm.toNat
  | .atSwap _ f => encAt 0 f
  | .atCas _ f => encAt 1 f
  | .atAdd _ f => encAt 2 f
  | .atAnd _ f => encAt 3 f
  | .atOr _ f => encAt 4 f
  | .atXor _ f => encAt 5 f
  | .atSmax _ f => encAt 6 f
  | .atSmin _ f => encAt 7 f
  | .atUmax _ f => encAt 8 f
  | .atUmin _ f => encAt 9 f
  | .beq _ f => encB 0 f
  | .bne _ f => encB 1 f
  | .blt _ f => encB 2 f
  | .bge _ f => encB 3 f
  | .bltu _ f => encB 4 f
  | .bgeu _ f => encB 5 f
  | .beqz _ f => encZ 0 f
  | .bnez _ f => encZ 1 f
  | .bltz _ f => encZ 2 f
  | .bgez _ f => encZ 3 f
  | .bgtz _ f => encZ 4 f
  | .blez _ f => encZ 5 f
  | .jal _ rd d off => encW 0x16 (rd.toNat * 2 ^ 20 + b2n d * 2 ^ 19 + off.toNat)
  | .jalr _ rd ra d imm => encW 0x17 (rd.toNat * 2 ^ 20 + ra.toNat * 2 ^ 15 + b2n d * 2 ^ 14 + imm.toNat)
  | .dcz _ ra => encR 0x18 0 ra 0 0x000
  | .preload _ ra lv _ => encR 0x18 0 ra 0 (0x010 + lv.toNat)
  | .preloadF _ ra lv => encR 0x18 0 ra 0 (0x018 + lv.toNat)
  | .dcrClean _ ra rb _ => encR 0x18 0 ra rb 0x020
  | .dcrInv _ ra rb _ => encR 0x18 0 ra rb 0x021
  | .dcrCinv _ ra rb _ => encR 0x18 0 ra rb 0x022
  | .xlinvPage _ ra rb l => encR 0x44 0 ra rb (0 + 16 * b2n l)
  | .xlinvSpace _ ra rb l => encR 0x44 0 ra rb (1 + 16 * b2n l)
  | .xlinvS1 _ ra rb l => encR 0x44 0 ra rb (2 + 16 * b2n l)
  | .xlinvGpage _ ra rb l => encR 0x44 0 ra rb (3 + 16 * b2n l)
  | .xlinvMach _ ra rb l => encR 0x44 0 ra rb (4 + 16 * b2n l)
  | .xlinvNorm _ ra rb l => encR 0x44 0 ra rb (5 + 16 * b2n l)
  | .xlinvHpage _ ra rb l => encR 0x44 0 ra rb (6 + 16 * b2n l)
  | .xlinvSec _ ra rb l => encR 0x44 0 ra rb (7 + 16 * b2n l)
  | .eret _ => encR 0x41 0 0 0 0x001
  | .ei _ => encR 0x41 0 0 0 0x002
  | .di _ => encR 0x41 0 0 0 0x003
  | .ctlsync _ => encR 0x41 0 0 0 0x004
  | .fenceI _ => encR 0x41 0 0 0 0x008
  | .fence _ pr pw sr sw => encR 0x41 0 0 0 (0x010 + 8 * b2n pr + 4 * b2n pw + 2 * b2n sr + b2n sw)
  | .predFlush _ => encR 0x41 0 0 0 0x020
  | .predBar _ => encR 0x41 0 0 0 0x021
  | .wait _ ra => encR 0x41 0 ra 0 0x030
  | .sleepAjar _ rd _ => encR 0x41 rd 0 0 0x034
  | .sleepLatched _ rd _ => encR 0x41 rd 0 0 0x035
  | .sleepClosed _ rd _ => encR 0x41 rd 0 0 0x036
  | .svc _ imm => encW 0x42 (0 * 2 ^ 23 + imm.toNat)
  | .hvc _ imm => encW 0x42 (1 * 2 ^ 23 + imm.toNat)
  | .gate _ imm => encW 0x42 (2 * 2 ^ 23 + imm.toNat)
  | .brk _ imm => encW 0x42 (3 * 2 ^ 23 + imm.toNat)
  | .gateRet _ => encR 0x43 0 0 0 0x000
  | .ownSet _ f => encR 0x43 f.rd f.ra f.rb 0x001
  | .crr _ rd n => encW 0x40 (rd.toNat * 2 ^ 20 + n.toNat)
  | .crw _ n ra => encW 0x40 (ra.toNat * 2 ^ 15 + 1 * 2 ^ 12 + n.toNat)
  | .clmul _ f => encR 0x48 f.rd f.ra f.rb 0x000
  | .clmulh _ f => encR 0x48 f.rd f.ra f.rb 0x001
  | .crc32c _ n f => encR 0x48 f.rd f.ra f.rb (0x010 + n.code)
  | .ieoi _ ra => encW 0x40 (ra.toNat * 2 ^ 15 + 1 * 2 ^ 12 + 0x044)
  | .vcpuWrite _ ra => encW 0x40 (ra.toNat * 2 ^ 15 + 1 * 2 ^ 12 + 0x045)
  | .vconf _ rd ra cfg => encR 0x30 rd ra 0 cfg.toNat
  | .vconfMax _ rd cfg => encR 0x30 rd 0 0 (0x080 + cfg.toNat)
  | .vconfKeep _ rd cfg => encR 0x30 rd 0 0 (0x100 + cfg.toNat)
  | .vadd _ f => encVs 0x31 0x00 f
  | .vsub _ f => encVs 0x31 0x01 f
  | .vsubr _ f => encVs 0x31 0x02 f
  | .vand _ f => encVs 0x31 0x03 f
  | .vor _ f => encVs 0x31 0x04 f
  | .vxor _ f => encVs 0x31 0x05 f
  | .vsll _ f => encVs 0x31 0x06 f
  | .vsrl _ f => encVs 0x31 0x07 f
  | .vsra _ f => encVs 0x31 0x08 f
  | .vmin _ f => encVs 0x31 0x09 f
  | .vmax _ f => encVs 0x31 0x0A f
  | .vminu _ f => encVs 0x31 0x0B f
  | .vmaxu _ f => encVs 0x31 0x0C f
  | .vmul _ f => encVs 0x31 0x0D f
  | .vmulxSs _ f => encVs 0x31 0x0E f
  | .vmulxUu _ f => encVs 0x31 0x0F f
  | .vdiv _ f => encVs 0x31 0x10 f
  | .vdivu _ f => encVs 0x31 0x11 f
  | .vrem _ f => encVs 0x31 0x12 f
  | .vremu _ f => encVs 0x31 0x13 f
  | .vblend _ f => encVs 0x31 0x14 f
  | .vcopy _ f => encVs 0x31 0x15 f
  | .vcmpEq _ f => encVs 0x31 0x20 f
  | .vcmpNe _ f => encVs 0x31 0x21 f
  | .vcmpLt _ f => encVs 0x31 0x22 f
  | .vcmpLtu _ f => encVs 0x31 0x23 f
  | .vcmpLe _ f => encVs 0x31 0x24 f
  | .vcmpLeu _ f => encVs 0x31 0x25 f
  | .vcmpGt _ f => encVs 0x31 0x26 f
  | .vcmpGtu _ f => encVs 0x31 0x27 f
  | .mskAnd _ f => encV 0x33 0x00 f
  | .mskOr _ f => encV 0x33 0x01 f
  | .mskXor _ f => encV 0x33 0x02 f
  | .mskAndn _ f => encV 0x33 0x03 f
  | .mskCount _ f => encV 0x33 0x04 f
  | .mskFirst _ f => encV 0x33 0x05 f
  | .vprefix _ f => encV 0x33 0x06 f
  | .vindex _ f => encV 0x33 0x07 f
  | .vextract _ f => encV 0x33 0x08 f
  | .vinsert _ f => encV 0x33 0x09 f
  | .vshiftup _ f => encV 0x33 0x0A f
  | .vshiftdn _ f => encV 0x33 0x0B f
  | .vperm _ f => encV 0x33 0x0C f
  | .vpack _ f => encV 0x33 0x0D f
  | .vredAdd _ f => encV 0x37 0x00 f
  | .vredAnd _ f => encV 0x37 0x01 f
  | .vredOr _ f => encV 0x37 0x02 f
  | .vredXor _ f => encV 0x37 0x03 f
  | .vredMin _ f => encV 0x37 0x04 f
  | .vredMax _ f => encV 0x37 0x05 f
  | .vredMinu _ f => encV 0x37 0x06 f
  | .vredMaxu _ f => encV 0x37 0x07 f
  | .vfredOadd _ f => encV 0x37 0x08 f
  | .vfredMin _ f => encV 0x37 0x09 f
  | .vfredMax _ f => encV 0x37 0x0A f
  | .vdot4Ss _ f => encV 0x37 0x10 f
  | .vdot4Uu _ f => encV 0x37 0x11 f
  | .vdot4Su _ f => encV 0x37 0x12 f
  | .vfadd _ f => encVs 0x34 0x00 f
  | .vfsub _ f => encVs 0x34 0x01 f
  | .vfmul _ f => encVs 0x34 0x02 f
  | .vfdiv _ f => encVs 0x34 0x03 f
  | .vfsqrt _ f => encVs 0x34 0x04 f
  | .vfmin _ f => encVs 0x34 0x05 f
  | .vfmax _ f => encVs 0x34 0x06 f
  | .vfsign _ f => encVs 0x34 0x07 f
  | .vfsignN _ f => encVs 0x34 0x08 f
  | .vfsignX _ f => encVs 0x34 0x09 f
  | .vfmadd _ f => encVs 0x34 0x0A f
  | .vfmsub _ f => encVs 0x34 0x0B f
  | .vfnmsub _ f => encVs 0x34 0x0C f
  | .vfcvtXF _ f => encVs 0x34 0x0D f
  | .vfcvtFX _ f => encVs 0x34 0x0E f
  | .vfcvtXuF _ f => encVs 0x34 0x0F f
  | .vfcvtFXu _ f => encVs 0x34 0x10 f
  | .vfeq _ f => encVs 0x34 0x20 f
  | .vflt _ f => encVs 0x34 0x21 f
  | .vfle _ f => encVs 0x34 0x22 f
  | .vfunord _ f => encVs 0x34 0x23 f
  | .dadd _ big f => encV 0x36 (0x00 + 32 * b2n big) f
  | .dsub _ big f => encV 0x36 (0x01 + 32 * b2n big) f
  | .dmul _ big f => encV 0x36 (0x02 + 32 * b2n big) f
  | .ddiv _ big f => encV 0x36 (0x03 + 32 * b2n big) f
  | .dfma _ big f => encV 0x36 (0x04 + 32 * b2n big) f
  | .dquant _ big f => encV 0x36 (0x05 + 32 * b2n big) f
  | .drint _ big f => encV 0x36 (0x06 + 32 * b2n big) f
  | .dmin _ big f => encV 0x36 (0x07 + 32 * b2n big) f
  | .dmax _ big f => encV 0x36 (0x08 + 32 * b2n big) f
  | .dcvtDI _ big f => encV 0x36 (0x09 + 32 * b2n big) f
  | .dcvtID _ big f => encV 0x36 (0x0A + 32 * b2n big) f
  | .deq _ big f => encV 0x36 (0x10 + 32 * b2n big) f
  | .dlt _ big f => encV 0x36 (0x11 + 32 * b2n big) f
  | .dle _ big f => encV 0x36 (0x12 + 32 * b2n big) f
  | .scalarFp _ ty fn f => encR 0x3A f.rd f.ra f.rb (ty.code * 256 + fpFunc fn)
  | .feq _ ty f => encR 0x3A f.rd f.ra f.rb (ty.code * 256 + 0x20)
  | .flt _ ty f => encR 0x3A f.rd f.ra f.rb (ty.code * 256 + 0x21)
  | .fle _ ty f => encR 0x3A f.rd f.ra f.rb (ty.code * 256 + 0x22)
  | .funord _ ty f => encR 0x3A f.rd f.ra f.rb (ty.code * 256 + 0x23)
  | .fmvXF _ ty rd ra => encR 0x3A rd ra 0 (ty.code * 256 + 0x30)
  | .fmvFX _ ty rd ra => encR 0x3A rd ra 0 (ty.code * 256 + 0x31)
  | .fcvtFF _ ty src rd ra => encR 0x3A rd ra (BitVec.ofNat 5 src.code) (ty.code * 256 + 0x32)
  | .scalarDecimal _ big fn f => encR 0x3B f.rd f.ra f.rb (32 * b2n big + decFunc fn)
  | .vsha256Rnd2 _ f => encV 0x49 0x00 f
  | .vsha256Sig0 _ f => encV 0x49 0x01 f
  | .vsha256Sig1 _ f => encV 0x49 0x02 f
  | .vaesenc _ f => encV 0x4A 0x00 f
  | .vaesenclast _ f => encV 0x4A 0x01 f
  | .vaesdec _ f => encV 0x4A 0x02 f
  | .vaesdeclast _ f => encV 0x4A 0x03 f
  | .vaesimc _ f => encV 0x4A 0x04 f
  | .vaessubw _ f => encV 0x4A 0x05 f
  | .vclmul _ f => encV 0x4B (0x00 + 2 * b2n f.sc) f
  | .vclmulh _ f => encV 0x4B (0x01 + 2 * b2n f.sc) f
  | .vld _ f => encVm 0x38 0 f
  | .vst _ f => encVm 0x39 0 f
  | .vlds _ f => encVm 0x38 1 f
  | .vsts _ f => encVm 0x39 1 f
  | .vldx _ f => encVm 0x38 2 f
  | .vstx _ f => encVm 0x39 2 f
  | .vldtr _ f => encVm 0x38 3 f
  | .unassignedEncoding _ w => w
  | .onchipAccessTimeout _ a => wordOfAccess a
  | .configAccess _ rd _ wr wd _ => if wr then encM 0x0E wd.code ⟨rd, 0, 0⟩ else encM 0x0D (ldCodeZ wd) ⟨rd, 0, 0⟩
  | .outboundRequest _ rd _ wr wd _ => if wr then encM 0x0E wd.code ⟨rd, 0, 0⟩ else encM 0x0D (ldCodeZ wd) ⟨rd, 0, 0⟩
  | _ => 0

/-- V-format fields without a mask: M 0 and mk 0. -/
def noMask (w : W32) : Bool := fld w 6 4 == 0
/-- M 0 needs mk 0 (R138). -/
def maskOk (w : W32) : Bool := bitAt w 9 || fld w 6 3 == 0

/-- Whether a word is an assigned encoding (R81, R82, R97, R95, R126, R138-R149): what is left depends on state. The fields of which the
tables name no use and ask no zero take any value: rb of scalar FCVT, FMV and DCVT, vb of VSHA256.RND2 (DESIGN CHOICE, log 116). -/
def assigned (w : W32) : Bool :=
  let rd := fld w 20 5
  let ra := fld w 15 5
  let rb := fld w 10 5
  let func := fld w 0 10
  let kind := fld w 12 3
  let vf := fld w 0 6
  match fld w 25 7 with
  | 0x01 => func ≤ 0x013 || (0x020 ≤ func && func ≤ 0x027) || (0x030 ≤ func && func ≤ 0x037 && rb == 0)
  | 0x02 => func ≤ 1 || (8 ≤ func && func ≤ 0xA) || func == 0x20 || (0x24 ≤ func && func ≤ 0x27)
  | 0x03 | 0x04 | 0x05 | 0x06 | 0x07 | 0x08 | 0x0A | 0x0B | 0x0C => true
  | 0x09 => kind ≤ 6 && fld w 6 6 == 0 && (kind ≤ 3 || !bitAt w 5)
  | 0x0D => kind ≤ 6
  | 0x0E => kind ≤ 3
  | 0x0F => kind != 3 && kind != 7
  | 0x10 => true
  | 0x11 => fld w 0 4 == 0 && (fld w 4 4 ≤ 6 || (8 ≤ fld w 4 4 && fld w 4 4 ≤ 11))
  | 0x12 => fld w 6 4 ≤ 9 && fld w 0 2 == 0 && !(rd == 0 && bitAt w 3)
  | 0x13 => rb == 0
  | 0x14 => kind ≤ 5 && !(bitAt w 10 && !bitAt w 11)
  | 0x15 => fld w 17 3 ≤ 5 && !(bitAt w 15 && !bitAt w 16)
  | 0x16 => true
  | 0x17 => !bitAt w 13
  | 0x18 => rd == 0 && (((func == 0 || (0x10 ≤ func && func ≤ 0x13) || (0x18 ≤ func && func ≤ 0x1B)) && rb == 0)
      || (0x20 ≤ func && func ≤ 0x22))
  | 0x30 => rb == 0 && !bitAt w 9 && fld w 7 2 != 3 && (fld w 7 2 == 0 || ra == 0)
  | 0x31 | 0x32 => (vf ≤ 0x15 || (0x20 ≤ vf && vf ≤ 0x27)) && maskOk w && (vf != 0x14 || bitAt w 9) && (vf != 0x15 || ra == 0)
      && (vf < 0x20 || rd < 8)
  | 0x33 =>
    match vf with
    | 0x00 | 0x01 | 0x02 | 0x03 => rd < 8 && ra < 8 && rb < 8 && maskOk w
    | 0x04 | 0x05 => ra < 8 && rb == 0 && maskOk w
    | 0x06 => ra < 8 && rb == 0 && maskOk w
    | 0x07 => ra == 0 && rb == 0 && maskOk w
    | 0x08 => rb == 0 && noMask w
    | 0x09 => rb == 0 && maskOk w
    | 0x0A | 0x0B | 0x0C => maskOk w
    | 0x0D => rb < 8 && noMask w
    | _ => false
  | 0x34 | 0x35 => (vf ≤ 0x10 || (0x20 ≤ vf && vf ≤ 0x23)) && maskOk w && (vf != 0x04 || rb == 0) && (vf < 0x20 || rd < 8)
  | 0x36 => (fld w 0 5 ≤ 0x0A || (0x10 ≤ fld w 0 5 && fld w 0 5 ≤ 0x12)) && maskOk w && (fld w 0 5 != 0x06 || rb == 0)
      && (fld w 0 5 != 0x09 || ra == 0) && (fld w 0 5 < 0x10 || rd < 8)
  | 0x37 => (vf ≤ 0x0A || (0x10 ≤ vf && vf ≤ 0x12)) && maskOk w
  | 0x38 | 0x39 => fld w 0 2 == 0 && maskOk w &&
    match fld w 4 2 with
    | 0 => rb == 0 && fld w 2 2 == 0
    | 1 => fld w 2 2 == 0
    | 2 => true
    | _ => fld w 25 7 == 0x38 && rb == 0 && fld w 2 2 == 0
  | 0x3A => (fld w 0 8 ≤ 0x10 && (fld w 0 8 != 0x04 || rb == 0)) || (0x20 ≤ fld w 0 8 && fld w 0 8 ≤ 0x23)
      || fld w 0 8 == 0x30 || fld w 0 8 == 0x31 || (fld w 0 8 == 0x32 && rb < 4)
  | 0x3B => fld w 6 4 == 0 && ((fld w 0 5 ≤ 0x0A && (fld w 0 5 != 0x06 || rb == 0)) || (0x10 ≤ fld w 0 5 && fld w 0 5 ≤ 0x12))
  | 0x40 => (kind == 0 && ra == 0) || (kind == 1 && rd == 0)
  | 0x41 =>
    if func == 0x030 then rd == 0 && rb == 0
    else if 0x034 ≤ func && func ≤ 0x036 then ra == 0 && rb == 0
    else rd == 0 && ra == 0 && rb == 0 && ((1 ≤ func && func ≤ 4) || func == 8 || (0x10 ≤ func && func ≤ 0x1F) || func == 0x20
      || func == 0x21)
  | 0x42 => fld w 16 7 == 0
  | 0x43 => (func == 0 && rd == 0 && ra == 0 && rb == 0) || func == 1
  | 0x44 => rd == 0 && fld w 5 5 == 0 && fld w 0 4 ≤ 7
  | 0x48 => func ≤ 1 || (0x10 ≤ func && func ≤ 0x13)
  | 0x49 => (vf == 0 && noMask w && rd % 4 == 0) || ((vf == 1 || vf == 2) && maskOk w && rb == 0)
  | 0x4A => vf ≤ 5 && noMask w && ra == 0
  | 0x4B => vf ≤ 3 && maskOk w
  | _ => false

end Sys2Proof.Machine
end

