-- ==== Sys2Proof/Machine/SoftFp.lean ====
section
/-! DEFINITION. Binary floating point by IEEE 754-2019 on FP16, BF16, FP32 and FP64 (R132, R143, R145, R56): exact arithmetic
on integers, then one rounding. -/

namespace Sys2Proof.Machine

/-- A binary format: exponent bits and trailing significand bits. -/
structure Fmt where
  eb : Nat
  mb : Nat
deriving DecidableEq, Repr

def fmtOf : FpTy → Fmt
  | .fp16 => ⟨5, 10⟩
  | .bf16 => ⟨8, 7⟩
  | .fp32 => ⟨8, 23⟩
  | .fp64 => ⟨11, 52⟩

def Fmt.bias (f : Fmt) : Nat := 2 ^ (f.eb - 1) - 1
def Fmt.width (f : Fmt) : Nat := 1 + f.eb + f.mb
/-- Exponent of the lowest bit of a subnormal. -/
def Fmt.qmin (f : Fmt) : Int := 1 - (f.bias : Int) - f.mb
/-- The bits of infinity without a sign. -/
def Fmt.infBits (f : Fmt) : Nat := (2 ^ f.eb - 1) * 2 ^ f.mb
def Fmt.sign (f : Fmt) (s : Bool) : Nat := if s then 2 ^ (f.eb + f.mb) else 0

/-- A floating value: NaN (signalling or not), infinity, or sign and integer times a power of two. -/
inductive FpVal
  | nan (sig : Bool)
  | inf (s : Bool)
  | fin (s : Bool) (m : Nat) (e : Int)
deriving DecidableEq, Repr

def unpackFp (f : Fmt) (x : Nat) : FpVal :=
  let x := x % 2 ^ f.width
  let s := x.testBit (f.eb + f.mb)
  let ex := (x / 2 ^ f.mb) % 2 ^ f.eb
  let m := x % 2 ^ f.mb
  if ex = 2 ^ f.eb - 1 then
    if m = 0 then .inf s else .nan (!m.testBit (f.mb - 1))
  else if ex = 0 then .fin s m f.qmin
  else .fin s (m + 2 ^ f.mb) (f.qmin + (ex : Int) - 1)

/-- Conditions in FLAGS order (R55): invalid, divide-by-zero, overflow, underflow, inexact; bit 5 is an exact tiny result, which
raises the condition underflow but no flag (IEEE 754-2019 7.5). -/
abbrev Conds := BitVec 6

def cNone : Conds := 0
def cInvalid : Conds := 1
def cDivZero : Conds := 2
def cOverflow : Conds := 4
def cUnderflow : Conds := 8
def cInexact : Conds := 16
def cTiny : Conds := 32

/-- The flags a set of conditions sets. -/
def flagsOf (c : Conds) : BitVec 5 := c.setWidth 5

/-- The conditions of `c` that are trapped under enables `te`. -/
def trapped (c : Conds) (te : BitVec 5) : Bool :=
  ((c.setWidth 5 ||| (if c.getLsbD 5 then 8#5 else 0)) &&& te) != 0

/-- The conditions a trap reports (R56). -/
def condsOf (c : Conds) : Nat := (c.setWidth 5 ||| (if c.getLsbD 5 then 8#5 else (0 : BitVec 5))).toNat

/-- Whether rounding increments a magnitude whose dropped part compares to one half as `cmp` (less, equal, greater) and is not
zero, for rounding direction `rm` (R55: 0 ties to even, 1 toward zero, 2 down, 3 up, 4 ties away). -/
def roundsUp (rm : Nat) (s odd : Bool) (cmp : Ordering) : Bool :=
  match rm with
  | 0 => match cmp with | .lt => false | .eq => odd | .gt => true
  | 1 => false
  | 2 => s
  | 3 => !s
  | _ => match cmp with | .lt => false | _ => true

/-- How a dropped part `r` of `2 ^ k` units, with something smaller below it if `sticky`, compares to one half. -/
def halfCmp (r full : Nat) (sticky : Bool) : Ordering :=
  if 2 * r < full then .lt else if 2 * r = full then (if sticky then .gt else .eq) else .gt

/-- `m * 2 ^ e` (and something below its last bit if `sticky`) with its low `k` bits rounded away. -/
def roundBits (rm : Nat) (s : Bool) (m k : Nat) (sticky : Bool) : Nat × Bool :=
  let kept := m / 2 ^ k
  let r := m % 2 ^ k
  if r = 0 ∧ ¬ sticky then (kept, false)
  else
    let cmp := if k = 0 then Ordering.lt else halfCmp r (2 ^ k) sticky
    (kept + b2n (roundsUp rm s (kept % 2 == 1) cmp), true)

/-- A finite non-zero magnitude rounded into a format. `m` has more bits than the format where `sticky` is set. -/
def roundFp (f : Fmt) (rm : Nat) (s : Bool) (m : Nat) (e : Int) (sticky : Bool) : Nat × Conds :=
  let top : Int := (Nat.log2 m : Int) + e
  let p := f.mb + 1
  let q : Int := max (top - f.mb) f.qmin
  let (kept, inexact) :=
    if q > e then roundBits rm s m (q - e).toNat sticky
    else (m * 2 ^ (e - q).toNat, false)
  let bits := (q - f.qmin).toNat * 2 ^ f.mb + kept
  let emin : Int := 1 - (f.bias : Int)
  let tinyBefore := decide (top < emin)
  let after := (roundBits rm s m (Nat.log2 m + 1 - p) sticky).1
  let tinyAfter := tinyBefore && decide ((Nat.log2 after : Int) + e + ((Nat.log2 m + 1 - p : Nat) : Int) < emin)
  let tiny := if Config.tinyAfter then tinyAfter else tinyBefore
  if bits ≥ f.infBits then
    let toInf := match rm with | 1 => false | 2 => s | 3 => !s | _ => true
    (f.sign s + (if toInf then f.infBits else f.infBits - 1), cOverflow ||| cInexact)
  else
    (f.sign s + bits,
      (if inexact then cInexact else cNone) |||
      (if tiny then (if inexact then cUnderflow else cTiny) else cNone))

/-- A quiet NaN of a format: sign and payload are free (DESIGN CHOICE, log 11). -/
def qnan (f : Fmt) (a b : Nat) : Nat :=
  let r := Config.nanBits f.width a b
  f.sign (r.testBit 0) + f.infBits + 2 ^ (f.mb - 1) + (r / 2) % 2 ^ (f.mb - 1)

/-- The sign of an exact zero sum of opposite signs (IEEE 754-2019 6.3). -/
def zeroSign (rm : Nat) : Bool := rm == 2

/-- Zero with a sign. -/
def fpZero (f : Fmt) (s : Bool) : Nat := f.sign s

def isSig : FpVal → Bool
  | .nan s => s
  | _ => false

/-- Invalid when an operand is a signalling NaN. -/
def sigCond (l : List FpVal) : Conds := if l.any isSig then cInvalid else cNone

/-- The exact sum of two finite magnitudes: sign, magnitude, exponent. -/
def sumExact (s1 : Bool) (m1 : Nat) (e1 : Int) (s2 : Bool) (m2 : Nat) (e2 : Int) : Int × Int :=
  let e := min e1 e2
  let a : Int := (m1 : Int) * 2 ^ (e1 - e).toNat
  let b : Int := (m2 : Int) * 2 ^ (e2 - e).toNat
  ((if s1 then -a else a) + (if s2 then -b else b), e)

/-- A finite sum rounded, with the sign of an exact zero. -/
def addFin (f : Fmt) (rm : Nat) (s1 : Bool) (m1 : Nat) (e1 : Int) (s2 : Bool) (m2 : Nat) (e2 : Int) : Nat × Conds :=
  let (v, e) := sumExact s1 m1 e1 s2 m2 e2
  if v = 0 then (fpZero f (if s1 = s2 then s1 else zeroSign rm), cNone)
  else roundFp f rm (decide (v < 0)) v.natAbs e false

def fpAddV (f : Fmt) (rm a b : Nat) (x y : FpVal) : Nat × Conds :=
  match x, y with
  | .nan _, _ | _, .nan _ => (qnan f a b, sigCond [x, y])
  | .inf s, .inf t => if s = t then (f.sign s + f.infBits, cNone) else (qnan f a b, cInvalid)
  | .inf s, _ => (f.sign s + f.infBits, cNone)
  | _, .inf t => (f.sign t + f.infBits, cNone)
  | .fin s1 m1 e1, .fin s2 m2 e2 => addFin f rm s1 m1 e1 s2 m2 e2

/-- The value with the other sign. -/
def negV : FpVal → FpVal
  | .nan s => .nan s
  | .inf s => .inf (!s)
  | .fin s m e => .fin (!s) m e

def fpAdd (f : Fmt) (rm a b : Nat) : Nat × Conds := fpAddV f rm a b (unpackFp f a) (unpackFp f b)
def fpSub (f : Fmt) (rm a b : Nat) : Nat × Conds := fpAddV f rm a b (unpackFp f a) (negV (unpackFp f b))

def fpMul (f : Fmt) (rm a b : Nat) : Nat × Conds :=
  let x := unpackFp f a
  let y := unpackFp f b
  match x, y with
  | .nan _, _ | _, .nan _ => (qnan f a b, sigCond [x, y])
  | .inf s, .inf t => (f.sign (s != t) + f.infBits, cNone)
  | .inf s, .fin t m _ | .fin t m _, .inf s => if m = 0 then (qnan f a b, cInvalid) else (f.sign (s != t) + f.infBits, cNone)
  | .fin s m e, .fin t n g =>
    if m = 0 ∨ n = 0 then (fpZero f (s != t), cNone) else roundFp f rm (s != t) (m * n) (e + g) false

def fpDiv (f : Fmt) (rm a b : Nat) : Nat × Conds :=
  let x := unpackFp f a
  let y := unpackFp f b
  match x, y with
  | .nan _, _ | _, .nan _ => (qnan f a b, sigCond [x, y])
  | .inf _, .inf _ => (qnan f a b, cInvalid)
  | .inf s, .fin t _ _ => (f.sign (s != t) + f.infBits, cNone)
  | .fin s _ _, .inf t => (fpZero f (s != t), cNone)
  | .fin s m e, .fin t n g =>
    if n = 0 then
      if m = 0 then (qnan f a b, cInvalid) else (f.sign (s != t) + f.infBits, cDivZero)
    else if m = 0 then (fpZero f (s != t), cNone)
    else
      let k := f.mb + 4 + Nat.log2 n
      let num := m * 2 ^ k
      roundFp f rm (s != t) (num / n) (e - g - k) (num % n != 0)

/-- The integer square root by halving the interval; `k` bits. -/
def isqrt (k n : Nat) : Nat :=
  (List.range k).foldr (fun i r => if (r + 2 ^ i) * (r + 2 ^ i) ≤ n then r + 2 ^ i else r) 0

def fpSqrt (f : Fmt) (rm a : Nat) : Nat × Conds :=
  let x := unpackFp f a
  match x with
  | .nan _ => (qnan f a 0, sigCond [x])
  | .inf s => if s then (qnan f a 0, cInvalid) else (f.infBits, cNone)
  | .fin s m e =>
    if m = 0 then (fpZero f s, cNone)
    else if s then (qnan f a 0, cInvalid)
    else
      let k0 := 2 * f.mb + 6
      let k := if (e - (k0 : Int)) % 2 = 0 then k0 else k0 + 1
      let n := m * 2 ^ k
      let r := isqrt (2 * f.mb + 6) n
      roundFp f rm false r ((e - k) / 2) (r * r != n)

/-- va x vb + c, rounded once; `negP` negates the product and `negC` the addend (R143). -/
def fpFma (f : Fmt) (rm a b c : Nat) (negP negC : Bool) : Nat × Conds :=
  let x := unpackFp f a
  let x := if negP then negV x else x
  let y := unpackFp f b
  let z := if negC then negV (unpackFp f c) else unpackFp f c
  let bad := match x, y with
    | .inf _, .fin _ m _ | .fin _ m _, .inf _ => m == 0
    | _, _ => false
  match x, y, z with
  | .nan _, _, _ | _, .nan _, _ => (qnan f a b, sigCond [x, y, z])
  | _, _, .nan _ => (qnan f a b, sigCond [z] ||| (if bad && Config.fmaInvalid then cInvalid else cNone))
  | .inf s, .inf t, _ => if bad then (qnan f a b, cInvalid) else fpAddV f rm a b (.inf (s != t)) z
  | .inf s, .fin t _ _, _ => if bad then (qnan f a b, cInvalid) else fpAddV f rm a b (.inf (s != t)) z
  | .fin s _ _, .inf t, _ => if bad then (qnan f a b, cInvalid) else fpAddV f rm a b (.inf (s != t)) z
  | .fin s m e, .fin t n g, _ => fpAddV f rm a b (.fin (s != t) (m * n) (e + g)) z

/-- Order of two values that are not NaN. -/
def fpCmp : FpVal → FpVal → Ordering
  | .inf s, .inf t => if s = t then .eq else if s then .lt else .gt
  | .inf s, _ => if s then .lt else .gt
  | _, .inf t => if t then .gt else .lt
  | .fin s m e, .fin t n g => compare (sumExact s m e (!t) n g).1 0
  | _, _ => .eq

def isNan : FpVal → Bool
  | .nan _ => true
  | _ => false

/-- minimumNumber and maximumNumber (R143): of a number and a NaN the number, negative zero below positive zero. -/
def fpMinMax (f : Fmt) (hi : Bool) (a b : Nat) : Nat × Conds :=
  let a := a % 2 ^ f.width
  let b := b % 2 ^ f.width
  let x := unpackFp f a
  let y := unpackFp f b
  let c := sigCond [x, y]
  if isNan x then (if isNan y then (qnan f a b, c) else (b, c))
  else if isNan y then (a, c)
  else
    let less := match fpCmp x y with
      | .lt => true
      | .gt => false
      | .eq => a.testBit (f.eb + f.mb)
    (if less = hi then b else a, c)

/-- va with the sign of vb, its inverse, or the exclusive or (R143): 0, 1, 2. -/
def fpSign (f : Fmt) (how a b : Nat) : Nat :=
  let t := f.eb + f.mb
  let s := match how with
    | 0 => b.testBit t
    | 1 => !b.testBit t
    | _ => a.testBit t != b.testBit t
  f.sign s + a % 2 ^ t

/-- Relations: 0 equal, 1 less, 2 less or equal, 3 unordered (R143). -/
def fpRel (f : Fmt) (r a b : Nat) : Bool × Conds :=
  let x := unpackFp f a
  let y := unpackFp f b
  let un := isNan x || isNan y
  let c := match r with
    | 1 | 2 => if un then cInvalid else cNone
    | _ => sigCond [x, y]
  let o := fpCmp x y
  (match r with
   | 0 => !un && o == .eq
   | 1 => !un && o == .lt
   | 2 => !un && o != .gt
   | _ => un, c)

/-- A finite value rounded to an integer; whether it was inexact. -/
def roundInt (rm : Nat) (s : Bool) (m : Nat) (e : Int) : Int × Bool :=
  if e ≥ 0 then ((if s then -1 else 1) * ((m * 2 ^ e.toNat : Nat) : Int), false)
  else
    let (k, nx) := roundBits rm s m (-e).toNat false
    ((if s then -(k : Int) else k), nx)

/-- Conversion to an integer of width `w` (R143): out of range gives the nearest, NaN the largest, with invalid. A result that
is not exact raises inexact (DESIGN CHOICE, log 117). -/
def fpToInt (f : Fmt) (rm w : Nat) (signed : Bool) (a : Nat) : Nat × Conds :=
  let lo : Int := if signed then -(2 ^ (w - 1)) else 0
  let hi : Int := if signed then 2 ^ (w - 1) - 1 else 2 ^ w - 1
  let enc (v : Int) : Nat := (v % 2 ^ w).toNat
  match unpackFp f a with
  | .nan _ => (enc hi, cInvalid)
  | .inf s => (enc (if s then lo else hi), cInvalid)
  | .fin s m e =>
    let (v, nx) := roundInt rm s m e
    if v < lo then (enc lo, cInvalid)
    else if v > hi then (enc hi, cInvalid)
    else (enc v, if nx then cInexact else cNone)

/-- Conversion from an integer of width `w` (R143). -/
def fpFromInt (f : Fmt) (rm w : Nat) (signed : Bool) (a : Nat) : Nat × Conds :=
  let a := a % 2 ^ w
  let v : Int := if signed ∧ a.testBit (w - 1) then (a : Int) - 2 ^ w else a
  if v = 0 then (0, cNone) else roundFp f rm (decide (v < 0)) v.natAbs 0 false

/-- Conversion between formats (R145, FCVT.F.F). -/
def fpConvert (dst from_ : Fmt) (rm a : Nat) : Nat × Conds :=
  let x := unpackFp from_ a
  match x with
  | .nan _ => (qnan dst a 0, sigCond [x])
  | .inf s => (dst.sign s + dst.infBits, cNone)
  | .fin s m e => if m = 0 then (fpZero dst s, cNone) else roundFp dst rm s m e false

end Sys2Proof.Machine
end

