-- ==== Sys2Proof/Machine/Flags.lean ====
section
/-! DEFINITION. The floating-point and decimal environments (R55, R56, R144): rounding, trap enables, sticky flags, and the trap. -/

namespace Sys2Proof.Machine

/-- CR.FENV and CR.DRM. -/
def fenvKey : Nat := 0x002
def drmKey : Nat := 0x003

/-- Rounding direction of an environment in effect. -/
def envRm (k : Core) (key : Nat) : Nat := fld (k.crEff key) 0 3
/-- Trap enables of an environment in effect. -/
def envTe (k : Core) (key : Nat) : BitVec 5 := BitVec.ofNat 5 (fld (k.crEff key) 3 5)

/-- The conditions of several elements together. -/
def joinConds (l : List Conds) : Conds := l.foldl (· ||| ·) 0

/-- VECTOR_FP or DECIMAL with the conditions raised (R56, R62). -/
def trapExc (key : Nat) (c : Conds) (vec : Bool) : Exc :=
  { Exc.plain (if key = fenvKey then 0x18 else 0x19) 1 0 (condsOf c) with vec := vec }

/-- Sticky flags of an environment take an operation's conditions. -/
def Core.setFlags (k : Core) (key : Nat) (c : Conds) : Core := if c = 0 then k else k.orFlags key (flagsOf c)

end Sys2Proof.Machine
end

