-- ==== Sys2Proof/Machine/Operands.lean ====
section
/-! DEFINITION. Operand forms of the scalar instructions (R79, R80, R86-R92, R97): immediates, addresses, branch targets, and how a
loaded value is placed. -/

namespace Sys2Proof.Machine

/-- imm15 of the I format. -/
def immI (f : RI) : W64 := f.imm.signExtend 64
/-- imm20 shifted left 12 (R86). -/
def immU (f : RU) : W64 := (f.imm.signExtend 64) <<< 12
/-- ga + imm12 (R88). -/
def addrM (k : Core) (f : RM) : W64 := k.gr f.ra + f.imm.signExtend 64
/-- ga + (gb << s) (R89). -/
def addrX (k : Core) (s : BitVec 2) (f : RRR) : W64 := k.gr f.ra + (k.gr f.rb <<< s.toNat)
/-- ga + imm10 x 64 (R91). -/
def addr64 (k : Core) (ra : RegNo) (imm : BitVec 10) : W64 := k.gr ra + ((imm.signExtend 64) <<< 6)

/-- A branch target: an offset in words from the branch itself (R80). -/
def target {n : Nat} (pc : W64) (off : BitVec n) : W64 := pc + ((off.signExtend 64) <<< 2)
/-- ga + imm13 (R97). -/
def targetR (k : Core) (ra : RegNo) (imm : BitVec 13) : W64 := k.gr ra + imm.signExtend 64

def widthBytes : Width → Nat
  | .w8 => 1 | .w16 => 2 | .w32 => 4 | .w64 => 8

def kindBytes : LdKind → Nat
  | .sb | .ub => 1 | .sh | .uh => 2 | .sw | .uw => 4 | .dw => 8

/-- Sign or zero extension of a load kind (R88). -/
def kindExtend (k : LdKind) (v : W64) : W64 :=
  match k with
  | .sb => sx 8 v
  | .sh => sx 16 v
  | .sw => sx 32 v
  | .dw | .ub | .uh | .uw => v

/-- A loaded value of zero-extended bytes placed in its destination (R88, R49). -/
def Core.place (k : Core) (rd : RegNo) (d : Dest) (v : W64) : Core :=
  match d with
  | .gpr kind => k.wg rd (kindExtend kind v)
  | .gzx => k.wg rd v
  | .fpr => k.wf rd v
  | .none => k

/-- An old value of an atomic: sign-extended from 32 bits in the .W forms (R93). -/
def atOld (dword : Bool) (v : W64) : W64 := if dword then v else sx 32 v

end Sys2Proof.Machine
end

