-- ==== Sys2Proof/Machine/Exec.lean ====
section
/-! DEFINITION. How a core carries out one instruction: whether it runs, interrupts taken in its place, the checks of R67 and R124 in
their order, the restrictions of a delay slot, retirement, and the common shapes of loads, stores and branches. -/

namespace Sys2Proof.Machine

/-- Core `c` executes instructions: its clock runs, it has been started, it neither waits, sleeps nor is halted, and no access of
it is out of the core. -/
def State.active (s : State) (c : Nat) : Bool :=
  let k := s.core c
  s.power.clocks && k.started && decide (k.run = .running) && k.out.isNone && k.heldEntry.isNone
    && !k.switching

/-! ## Interrupts (R63, R188-R196) -/

/-- The level of an interrupt before the redirection of R52: PL3 for a source whose group is secure and for local source 2. -/
def origOf (s : State) (t detail : Nat) : Nat :=
  let secureGroup : Bool := if detail < 0x1000 then bitAt (srcOf s detail) 3 else detail == 0x1002
  if t = 3 ∧ ¬ secureGroup then 2 else t

/-- INTERRUPT, with VEC for a held vector instruction that it stops (R190). -/
def interruptExc (k : Core) (detail : Nat) : Exc := { Exc.plain 0x3F 0 0 detail with vec := k.vecStop }

/-- Entry for a source at level `t` (R64, R191): every unretired instruction is discarded. Its 12 cycles count to the context being
left (R340). -/
def enterInterrupt (s : State) (c t detail : Nat) : State :=
  let orig := origOf s t detail
  let s := (s.event c 0x009 1).countCycles c 12
  s.onCore c (fun k =>
    { ({ k with waitLd := none, heldEntry := none }).enter t orig (interruptExc k detail) (some 0x400) with vecStop := false })

/-- The first eligible interrupt is entered (R63, R188, R454, R455); a global source is reported taken. While an access that cannot
be repeated is out, the entry is held (R192). -/
def takeInterrupt (s : State) (c : Nat) : State :=
  match firstCand (eligible s c) with
  | none => s
  | some x =>
    let s := if x.glob then takeSource s c x.t x.num else s
    if (s.core c).out.isSome then s.onCore c (fun k => { k with heldEntry := some (x.num, x.t) })
    else enterInterrupt s c x.t x.num

/-- WAIT and SLEEP, which look at a pending interrupt themselves (R115, R116), and an instruction that the command says an interrupt
stops on its way (R107, R156, R157). -/
def meetsInterrupt : Instr → Bool
  | .wait _ _ | .sleepAjar _ _ _ | .sleepLatched _ _ _ | .sleepClosed _ _ _ => true
  | .dcrClean _ _ _ x | .dcrInv _ _ _ x | .dcrCinv _ _ _ x => x.isSome
  | .vadd _ f | .vsub _ f | .vsubr _ f | .vand _ f | .vor _ f | .vxor _ f | .vsll _ f | .vsrl _ f | .vsra _ f | .vmin _ f
  | .vmax _ f | .vminu _ f | .vmaxu _ f | .vmul _ f | .vmulxSs _ f | .vmulxUu _ f | .vdiv _ f | .vdivu _ f | .vrem _ f
  | .vremu _ f | .vblend _ f | .vcopy _ f | .vcmpEq _ f | .vcmpNe _ f | .vcmpLt _ f | .vcmpLtu _ f | .vcmpLe _ f | .vcmpLeu _ f
  | .vcmpGt _ f | .vcmpGtu _ f | .mskAnd _ f | .mskOr _ f | .mskXor _ f | .mskAndn _ f | .mskCount _ f | .mskFirst _ f
  | .vprefix _ f | .vindex _ f | .vextract _ f | .vinsert _ f | .vshiftup _ f | .vshiftdn _ f | .vperm _ f | .vpack _ f
  | .vredAdd _ f | .vredAnd _ f | .vredOr _ f | .vredXor _ f | .vredMin _ f | .vredMax _ f | .vredMinu _ f | .vredMaxu _ f
  | .vfredOadd _ f | .vfredMin _ f | .vfredMax _ f | .vdot4Ss _ f | .vdot4Uu _ f | .vdot4Su _ f | .vfadd _ f | .vfsub _ f
  | .vfmul _ f | .vfdiv _ f | .vfsqrt _ f | .vfmin _ f | .vfmax _ f | .vfsign _ f | .vfsignN _ f | .vfsignX _ f | .vfmadd _ f
  | .vfmsub _ f | .vfnmsub _ f | .vfcvtXF _ f | .vfcvtXuF _ f | .vfcvtFX _ f | .vfcvtFXu _ f | .vfeq _ f | .vflt _ f | .vfle _ f
  | .vfunord _ f | .dadd _ _ f | .dsub _ _ f | .dmul _ _ f | .ddiv _ _ f | .dfma _ _ f | .dquant _ _ f | .drint _ _ f
  | .dmin _ _ f | .dmax _ _ f | .dcvtDI _ _ f | .dcvtID _ _ f | .deq _ _ f | .dlt _ _ f | .dle _ _ f | .vsha256Rnd2 _ f
  | .vsha256Sig0 _ f | .vsha256Sig1 _ f | .vaesenc _ f | .vaesenclast _ f | .vaesdec _ f | .vaesdeclast _ f | .vaesimc _ f
  | .vaessubw _ f | .vclmul _ f | .vclmulh _ f => f.stop.isSome
  | .vld _ f | .vst _ f | .vlds _ f | .vsts _ f | .vldx _ f | .vstx _ f | .vldtr _ f => f.stop.isSome
  | _ => false

/-- An eligible interrupt is taken in place of an instruction (R67). -/
def preempted (s : State) (c : Nat) (i : Instr) : Bool := interruptReady s c && !meetsInterrupt i

/-- The level that WAIT and SLEEP need (R117): PL1, and PL2 from normal PL1 under CR.HCFG.TWAIT. -/
def waitNeeds (k : Core) : Nat := if k.pl = 1 ∧ ¬ k.secure ∧ bitAt (k.crBase 0x210) 1 then 2 else 1

def isWait : Instr → Bool
  | .wait _ _ | .sleepAjar _ _ _ | .sleepLatched _ _ _ | .sleepClosed _ _ _ => true
  | _ => false

/-! ## Loads and stores as instructions -/

/-- A load's value arrives: the destination, and retirement. -/
def loadDone (s : State) (c : Nat) (rd : RegNo) (d : Dest) (v : W64) : State :=
  ((s.onCore c (fun k => k.place rd d v)).event c 0x005 1).retire c

/-- A load leaves the core for a root complex and waits for its response (R192, R436). -/
def loadLeaves (s : State) (c : Nat) (rd : RegNo) (d : Dest) (bytes : Nat) (va : W64) (k p pa : Nat) (cfg : Bool) : State :=
  let (s, tag) := sendOut s k p c pa cfg
  s.onCore c (fun q => { q with out := some ⟨rd, d, bytes, pa, va, false, 0, some k, tag, cfg, none⟩ })

/-- The end of a load. -/
def loadEnd (s : State) (c : Nat) (rd : RegNo) (d : Dest) (bytes : Nat) (va : W64) (acquire : Bool) (r : Read) : State :=
  match r with
  | .val v => loadDone s c rd d v
  | .fails e => (if e.code = 0x13 then s.onCore c (fun k => k.place rd d (ones bytes)) else s).except c e
  | .waits => s.onCore c (fun k => { k with waitLd := some ⟨rd, d, bytes, va, acquire⟩ })
  | .left k p pa cfg => loadLeaves s c rd d bytes va k p pa cfg

/-- A load of `bytes` at `va` (R88-R90, R169, R174). Acquire loads are aligned and follow release stores (R71). -/
def loadInstr (s : State) (c : Nat) (rd : RegNo) (d : Dest) (bytes : Nat) (va : W64) (acquire : Bool) : State :=
  if acquire ∧ va.toNat % bytes ≠ 0 then s.except c (alignExc va false)
  else
    let s := if acquire then drainThrough s c (fun e => e.rel) else s
    let (s, r) := load s c va .load bytes
    loadEnd s c rd d bytes va acquire r

/-- Whether a store overlaps a load, in either part of a split load (R169, R174). -/
def waitsOn (s : State) (c : Nat) (w : WaitLd) (e : SbEnt) : Bool :=
  let n1 := min w.bytes (64 - w.va.toNat % 64)
  let part (va : W64) (n : Nat) : Bool := match (translate s c va .load true).2 with
    | .ok x => e.overlaps x.pa n
    | .error _ => false
  part w.va n1 || (n1 < w.bytes && part (w.va + BitVec.ofNat 64 n1) (w.bytes - n1))

/-- A waiting load is performed once more; one that would still wait, through stores that change its translation, goes after the
whole buffer. -/
def retryLoad (s : State) (c : Nat) (w : WaitLd) : State :=
  let t := loadInstr s c w.rd w.dest w.bytes w.va w.acquire
  if (t.core c).waitLd.isNone then t else loadInstr (drainAll s c) c w.rd w.dest w.bytes w.va w.acquire

/-- A waiting load is released: the stores that overlap it drain, and it is performed (R169, R170). -/
def releaseWait (s : State) (c : Nat) : State :=
  match (s.core c).waitLd with
  | none => s
  | some w =>
    let s := s.onCore c (fun k => { k with waitLd := none })
    retryLoad (drainThrough s c (waitsOn s c w)) c w

/-- The end of a store. -/
def storeEnd (s : State) (c : Nat) (bytes : Nat) (va : W64) (w : Wrote) : State :=
  match w with
  | .done => (s.event c 0x006 1).retire c
  | .fails e => s.except c e
  | .left k p pa =>
    let (s, tag) := sendOut s k p c pa true
    s.onCore c (fun q => { q with out := some ⟨0, .none, bytes, pa, va, true, 0, some k, tag, true, none⟩ })

/-- A store of `bytes` at `va` (R88-R90, R168, R174, R178). Release stores are aligned. -/
def storeInstr (s : State) (c : Nat) (bytes : Nat) (va v : W64) (release : Bool) : State :=
  if release ∧ va.toNat % bytes ≠ 0 then s.except c (alignExc va true)
  else
    let (s, w) := storeTo s c va .store bytes v release
    storeEnd s c bytes va w

/-! ## Branches -/

/-- A branch or jump retires (R97-R100): to its target, through its slot, or past an annulled slot, which counts one position
(R57) and one DSLOT_ANNULLED; a wrong prediction of it counts as retired (R467). -/
def branchTo (s : State) (c : Nat) (taken : Bool) (tgt : W64) (d a : Bool) : State :=
  let s := s.event c 0x003 1
  let s := if (s.core c).misp.contains (s.core c).pc then s.event c 0x004 1 else s
  let s := (if d && !taken && a then s.event c 0x008 1 else s).retired c
  (s.onCore c (fun k =>
    let k := { k with misp := k.misp.filter (· != k.pc) }
    if d then
      if taken then { k with slot := some tgt, pc := k.pc + 4 }
      else if a then { k.position with pc := k.pc + 8, slot := none }
      else { k with slot := some (k.pc + 8), pc := k.pc + 4 }
    else { k with pc := if taken then tgt else k.pc + 4, slot := none })).cyclesPass c

/-! ## The instruction -/

/-- Instructions that need no level and that an executing delay slot may not hold (R101). -/
def slotBranch : Instr → Bool
  | .beq _ _ | .bne _ _ | .blt _ _ | .bge _ _ | .bltu _ _ | .bgeu _ _ | .beqz _ _ | .bnez _ _ | .bltz _ _ | .bgez _ _
  | .bgtz _ _ | .blez _ _ | .jal _ _ _ _ | .jalr _ _ _ _ _ | .svc _ _ => true
  | _ => false

/-- Those that need a level: in a slot they raise ILLEGAL only from that level up (R101, R124). -/
def slotLevelled : Instr → Bool
  | .eret _ | .gate _ _ | .gateRet _ | .hvc _ _ | .wait _ _ | .sleepAjar _ _ _ | .sleepLatched _ _ _ | .sleepClosed _ _ _ => true
  | _ => false

/-- Before the instruction's own work (R57, R67, R182): a load still waiting ends, a position passes, the context holds a predictor
index, the word is fetched, its encoding and its place in a slot are checked. The answer is the exception of the first check that
fails. -/
def checks (s : State) (c : Nat) (i : Instr) : State × Option Exc :=
  let s := (releaseWait s c).onCore c (fun k => { k.position.useCtx with vecStop := false })
  match fetch s c with
  | (s, some e) => (s, some e)
  | (s, none) =>
    if slotBranch i ∧ (s.core c).slot.isSome then (s, some (illegalExc (wordOf i)))
    else if ¬ assigned (wordOf i) then (s, some (illegalExc (wordOf i)))
    else (s, none)

/-- The checks of one instruction, then `body`. -/
def attempt (s : State) (c : Nat) (i : Instr) (body : State → State) : State :=
  match checks s c i with
  | (s, some e) => s.except c e
  | (s, none) => body s

/-- A WAIT or SLEEP that does not come to execute: a cause of its own stands, behind an eligible interrupt (R67). -/
def waitBarred (s : State) (c : Nat) (i : Instr) : Bool :=
  isWait i && interruptReady s c && (match checks s c i with
    | (_, some _) => true
    | (t, none) => decide ((t.core c).pl < waitNeeds (t.core c)) || (t.core c).slot.isSome)

/-- One instruction of a core: no effect while the core does not run, nor yet while it needs memory whose requests wait (R422); an
eligible interrupt is entered in its place (R67, R68). -/
def runInstr (s : State) (c : Nat) (i : Instr) (body : State → State) : State :=
  if ¬ s.active c then s
  else if preempted s c i ∨ waitBarred s c i then takeInterrupt s c
  else
    let t := attempt s c i body
    if t.stalled then s else t

/-- An instruction that needs a level, and the ILLEGAL of R101 after that check (R124). -/
def needsLevel (s : State) (c : Nat) (i : Instr) (need : Nat) (body : State → State) : State :=
  if (s.core c).pl < need then s.except c (privExc (s.core c) (wordOf i) need)
  else if slotLevelled i ∧ (s.core c).slot.isSome then s.except c (illegalExc (wordOf i))
  else body s

/-- An instruction whose whole effect is a change of its core. -/
def coreInstr (s : State) (c : Nat) (i : Instr) (f : State → Core → Core) : Result :=
  done (runInstr s c i (fun s => (s.onCore c (f s)).retire c))

end Sys2Proof.Machine
end

