-- ==== Sys2Proof/Machine/Branch.lean ====
section
/-! DEFINITION. Branches and jumps (R97-R102), and what branch prediction holds (R179-R184). -/

namespace Sys2Proof.Machine

/-! ## Prediction state -/

/-- An entry put first in a structure of `cap` entries, in place of one with its index and key (R179). Which entry a full structure
gives up is not said: the least recently trained (DESIGN CHOICE, log 61). -/
def remember (cap : Nat) (e : PredEnt) (l : List PredEnt) : List PredEnt :=
  (e :: l.filter (fun x => !(x.idx == e.idx && x.addr == e.addr && x.key == e.key))).take cap

def recollect (l : List PredEnt) (i : Nat) (addr : W64) (key : BitVec 192) : Option PredEnt :=
  l.find? (fun x => x.idx == i && x.addr == addr && x.key == key)

/-- The history lengths of the six tagged tables (Table 7 of 05). -/
def histLens : List Nat := [6, 12, 24, 48, 96, 192]

/-- The last `n` outcomes. -/
def lastOf (h : BitVec 192) (n : Nat) : BitVec 192 := h &&& BitVec.ofNat 192 (2 ^ n - 1)

/-- A two-bit counter moved by an outcome. -/
def moved (ctr : Nat) (taken : Bool) : Nat := if taken then min 3 (ctr + 1) else ctr - 1

/-- A call pushes its return address on the return stack of 64 (R181), under the running context's index (R182). -/
def rasPush (k : Core) (a : W64) : Core :=
  { k with pred := { k.pred with ras := (((ctxIdx k).getD 0, a) :: k.pred.ras).take 64 } }
/-- A return pops the top entry, another context's too, which predicts nothing (DESIGN CHOICE, log 118). -/
def rasPop (k : Core) : Core := { k with pred := { k.pred with ras := k.pred.ras.tail } }

/-- The direction predicted: that of the longest history that has an entry, else the bimodal counter's, else not taken (R179; how
the tables are indexed is DESIGN CHOICE, log 61). -/
def predictedTaken (p : Pred) (i : Nat) (addr : W64) : Bool :=
  let long := (histLens.zip p.tagged).reverse.findSome? (fun (n, t) => recollect t i addr (lastOf p.hist n))
  match long with
  | some e => decide (2 ≤ e.ctr)
  | none => match recollect p.base i addr 0 with
    | some e => decide (2 ≤ e.ctr)
    | none => false

/-- The target from the indirect-target predictor, by address and path history. -/
def predictedIndirect (p : Pred) (i : Nat) (addr : W64) : Option W64 := (recollect p.ind i addr p.path).map (·.target)

/-- The target a taken branch of a kind is predicted to have, or none where nothing predicts it (R179, R181). -/
def predictedTarget (p : Pred) (i : Nat) (addr : W64) (kind : BranchKind) (off : Bool) : Option W64 :=
  let indirect := if off then none else predictedIndirect p i addr
  match kind with
  | .direct => ((recollect p.zero i addr 0).orElse (fun _ => recollect p.main i addr 0)).map (·.target)
  | .indirect => indirect
  | .ret => match p.ras with
    | (j, a) :: _ => if j = i then some a else indirect
    | [] => indirect

/-- A branch trains the structures at its resolution (R179, R182): direction, target buffers, indirect targets, histories. -/
def train (p : Pred) (i : Nat) (addr target : W64) (taken : Bool) (kind : BranchKind) (off : Bool) : Pred :=
  let dir (l : List PredEnt) (key : BitVec 192) (cap : Nat) : List PredEnt :=
    let old := ((recollect l i addr key).map (·.ctr)).getD (if taken then 1 else 2)
    remember cap ⟨i, addr, key, target, moved old taken⟩ l
  let p' :=
    match kind with
    | .direct =>
      let tabs := (List.range 6).map (fun n => dir (nthD [] p.tagged n) (lastOf p.hist (nthD 0 histLens n)) 2048)
      let e : PredEnt := ⟨i, addr, 0, target, 0⟩
      { p with base := dir p.base 0 16384, tagged := tabs,
               zero := if taken then remember 1024 e p.zero else p.zero,
               main := if taken then remember 16384 e p.main else p.main }
    | _ => if off then p else { p with ind := remember 4096 ⟨i, addr, p.path, target, 0⟩ p.ind }
  { p' with hist := (p.hist <<< 1) ||| (if taken then 1 else 0),
            path := if taken then (p.path <<< 2) ^^^ target.setWidth 192 else p.path }

/-- What a wrong-path fetch or load at an address may leave (R185-R187): the entries of a walk that completes, and the line of a
Normal cacheable page whose checks pass. -/
def wrongPath (s : State) (c : Nat) (w : Bool × W64) : State :=
  match translate s c w.2 (if w.1 then .fetch else .load) true with
  | (_, .error _) => s
  | (t, .ok x) =>
    if t.stalled then s
    else if x.mt ≠ .wb ∧ x.mt ≠ .wt then t
    else
      match coreRead t c (x.pa / 64) (if w.1 then .i else .d) (identOf s c) with
      | (_, .error _) => t
      | (u, .ok _) => if u.stalled then t else u

/-- BRANCH_RESOLVE: a branch resolves in EX, before its own command retires it (R165, R179-R181). A wrong prediction is counted, and
once more where the branch retires (R467); the branch trains the running context. While CR.PREDCTL.INDOFF is 1 the indirect-target predictor is neither used nor trained, and what
it would have predicted waits instead (R184). `wrong` lists fetches (true) and loads of the wrong path. Younger instructions have no
other effect to undo, and the return stack stands as it did at the branch. -/
def execBranchResolve (c : CoreId) (addr tgt : W64) (taken : Bool) (kind : BranchKind) (wrong : List (Bool × W64)) (s : State) :
    Result :=
  done (
    if ¬ s.active c then s
    else
      let s := s.onCore c Core.useCtx
      let k := s.core c
      let i := (ctxIdx k).getD 0
      let off := bitAt (k.crBase (crKey 0x110 k.secure)) 0
      let goal := predictedTarget k.pred i addr kind off
      let stalls : Bool := decide (kind ≠ .direct) && off && goal.isNone
      let right : Bool := match kind with
        | .direct => (predictedTaken k.pred i addr == taken) && (!taken || goal == some tgt)
        | _ => goal == some tgt
      let missed : Bool := !right && !stalls
      let s := if missed then (wrong.foldl (fun s w => wrongPath s c w) s).event c 0x017 1 else s
      s.onCore c (fun k => { k with pred := train k.pred i addr tgt taken kind off,
                                    misp := k.misp.filter (· != addr) ++ if missed then [addr] else [] }))

/-! ## Conditional branches -/

/-- A branch that compares gd with ga (R97). -/
def branchB (s : State) (c : Nat) (i : Instr) (f : BF) (cond : W64 → W64 → Bool) : Result :=
  done (runInstr s c i (fun s =>
    let k := s.core c
    branchTo s c (cond (k.gr f.rd) (k.gr f.ra)) (target k.pc f.off) f.d f.a))

/-- A branch that compares gd with zero (R97). -/
def branchZ (s : State) (c : Nat) (i : Instr) (f : ZF) (cond : W64 → Bool) : Result :=
  done (runInstr s c i (fun s =>
    let k := s.core c
    branchTo s c (cond (k.gr f.rd)) (target k.pc f.off) f.d f.a))

/-- BEQ (R97, R100). -/
def execBeq (c : CoreId) (f : BF) (s : State) : Result := branchB s c (.beq c f) f (fun a b => a == b)

/-- BNE (R97, R100). -/
def execBne (c : CoreId) (f : BF) (s : State) : Result := branchB s c (.bne c f) f (fun a b => a != b)

/-- BLT (R97, R100). -/
def execBlt (c : CoreId) (f : BF) (s : State) : Result := branchB s c (.blt c f) f (fun a b => a.slt b)

/-- BGE (R97, R100). -/
def execBge (c : CoreId) (f : BF) (s : State) : Result := branchB s c (.bge c f) f (fun a b => !(a.slt b))

/-- BLTU (R97, R100). -/
def execBltu (c : CoreId) (f : BF) (s : State) : Result := branchB s c (.bltu c f) f (fun a b => a.ult b)

/-- BGEU (R97, R100). -/
def execBgeu (c : CoreId) (f : BF) (s : State) : Result := branchB s c (.bgeu c f) f (fun a b => !(a.ult b))

/-- BEQZ (R97, R100). -/
def execBeqz (c : CoreId) (f : ZF) (s : State) : Result := branchZ s c (.beqz c f) f (fun a => a == 0)

/-- BNEZ (R97, R100). -/
def execBnez (c : CoreId) (f : ZF) (s : State) : Result := branchZ s c (.bnez c f) f (fun a => a != 0)

/-- BLTZ (R97, R100). -/
def execBltz (c : CoreId) (f : ZF) (s : State) : Result := branchZ s c (.bltz c f) f (fun a => a.slt 0)

/-- BGEZ (R97, R100). -/
def execBgez (c : CoreId) (f : ZF) (s : State) : Result := branchZ s c (.bgez c f) f (fun a => !(a.slt 0))

/-- BGTZ (R97, R100). -/
def execBgtz (c : CoreId) (f : ZF) (s : State) : Result := branchZ s c (.bgtz c f) f (fun a => (0 : W64).slt a)

/-- BLEZ (R97, R100). -/
def execBlez (c : CoreId) (f : ZF) (s : State) : Result := branchZ s c (.blez c f) f (fun a => !((0 : W64).slt a))

/-! ## Jumps -/

/-- A jump with link (R99): gd takes the address after the jump, or after its slot; calls and returns move the return stack
(R181). -/
def jump (s : State) (c : Nat) (rd : RegNo) (tgt : W64) (d ret : Bool) : State :=
  let k := s.core c
  let link := k.pc + (if d then 8 else 4)
  let s := s.onCore c (fun k =>
    let k := k.wg rd link
    if rd = 31 then rasPush k link else if ret then rasPop k else k)
  branchTo s c true tgt d false

/-- JAL, J (R97, R99). -/
def execJal (c : CoreId) (rd : RegNo) (d : Bool) (off : BitVec 19) (s : State) : Result :=
  done (runInstr s c (.jal c rd d off) (fun s => jump s c rd (target (s.core c).pc off) d false))

/-- JALR, JR: a misaligned target raises ALIGN at the jump (R97-R99). -/
def execJalr (c : CoreId) (rd ra : RegNo) (d : Bool) (imm : BitVec 13) (s : State) : Result :=
  done (runInstr s c (.jalr c rd ra d imm) (fun s =>
    let t := targetR (s.core c) ra imm
    if t.toNat % 4 ≠ 0 then s.except c (alignExc t false)
    else jump s c rd t d (rd == 0 && ra == 31)))

/-- PRED.FLUSH: every entry of the running context (R114, R184). -/
def execPredFlush (c : CoreId) (s : State) : Result :=
  coreInstr s c (.predFlush c) (fun _ k => match ctxIdx k with
    | some i => { k with pred := k.pred.drop i }
    | none => k)

/-- PRED.BAR: a fresh index for the running context, under which nothing is trained; the histories start again (R114, R184). -/
def execPredBar (c : CoreId) (s : State) : Result :=
  coreInstr s c (.predBar c) (fun _ k =>
    let p := match ctxIdx k with
      | some i => { k.pred.drop i with ctxs := k.pred.ctxs.filter (fun x => x.idx != i), hist := 0, path := 0 }
      | none => { k.pred with hist := 0, path := 0 }
    { k with pred := p }.useCtx)

end Sys2Proof.Machine
end

