-- ==== Sys2Proof/Machine/CacheOps.lean ====
section
/-! DEFINITION. Cache maintenance and preload (R103-R107), with their reach (R243, R246), and FENCE.I and FENCE (R72, R73, R112). -/

namespace Sys2Proof.Machine

/-- DCZ: 64 zero bytes to the line that holds ga, whose address the access has (R104). -/
def execDcz (c : CoreId) (ra : RegNo) (s : State) : Result :=
  done (runInstr s c (.dcz c ra) (fun s =>
    let va := (s.core c).gr ra &&& ~~~0x3F#64
    let (s, w) := storeLine s c va .dcz 0 .zero
    storeEnd s c 64 va w))

/-! ## Preload -/

/-- A line's data for a copy in the LLC: a holder is snooped with SnpShared, else memory answers (R243, Table 6 of 07). Outside a fill
window the caches of the issuing core, `mine`, stay unchanged. -/
def llcSource (s : State) (line ko : Nat) (entry : W16) (mine : Option Nat) : State × CLine :=
  match (dirOf s line).holder.filter (fun h => mine != some h) with
  | some h =>
    let d := dirOf s line
    let (s, (x, dirty)) := snoopCore s h line .shared
    let s := if dirty then s else setDir s line { d with holder := none }
    match x with
    | some x => (s, { x with entry := entry })
    | none => fetchLine s line ko entry
  | none => match llcFind s line with
    | some (_, y) => (s, y.c)
    | none => fetchLine s line ko entry

/-- PRELOAD.F naming level 2 in a fill window: the line goes to FILLWAY, its old line out as a victim (R243). It retires with
the line present (R105): a victim its way waits for is accepted first, and its own. -/
def fillWay (s : State) (line ko : Nat) (entry : W16) : State :=
  let slice := sliceOf line
  let w := s.regF .llcLock slice 0 0 16 4
  let s := acceptWay s line w
  let (s, x, dirty) : State × CLine × Bool :=
    match llcFind s line with
    | some (w0, y) =>
      let (s, c) := llcSource s line ko entry none
      ({ s with llc := del s.llc (llcKey line w0) }, c, y.dirty)
    | none =>
      let (s, c) := llcSource s line ko entry none
      (s, c, false)
  let s := match look s.llc (llcKey line w) with
    | some old => if old.placed ∧ old.line ≠ line then s.bump .llcEvcnt slice 0 0 16 16 1 else s
    | none => s
  acceptFor (llcPlace s line w ⟨line, x, dirty, true, false⟩) line

/-- The LLC step of a preload (R237, R243, R246, R263): vault lines never enter the LLC; a holder is snooped; a hint that would find
every victim buffer entry taken is dropped (R105, R238), PRELOAD.F waits for its line. -/
def preloadLlc (s : State) (c line ko : Nat) (entry : W16) (faulting : Bool) : State :=
  if isVault line then s
  else
    let s := settleLine s line
    let s := settleLlc s line
    if faulting ∧ bitAt (s.reg .llcLock (sliceOf line) 0 0) 20 then fillWay s line ko entry
    else if ¬ faulting ∧ (llcFind s line).isNone ∧ victimsFull s (sliceOf line) then s
    else
      let (s, x) := llcSource s line ko entry (some c)
      let s := llcAllocate s line (qosOf s c) x false
      if faulting then acceptFor s line else s

/-- A preload of a line at a level: 0 L1D, 1 L2, 2 LLC, 3 L1I (R103). The answer is a failed ownership check. -/
def preloadLine (s : State) (c line level : Nat) (faulting : Bool) : State × Option (Nat × Nat) :=
  let q := s.core c
  if level = 2 ∧ isVault line ∧ ¬ faulting then (s, none)
  else if level = 2 then
    match homeCheck s line q.secure q.owner.toNat false with
    | (s, .error f) => (s, some f)
    | (s, .ok (ko, e)) => (serveReady (preloadLlc s c line ko e faulting), none)
  else
    let l : L1 := if level = 0 then .d else if level = 3 then .i else .none
    match coreRead s c line l (identOf s c) with
    | (s, .error f) => (s, some f)
    | (s, .ok _) => (s, none)

def preloadKind (level : BitVec 2) : AccKind := if level = 3 then .preloadX else .preload

/-- PRELOAD: a hint that faults never, may be dropped, and fills only from a page its level may read (R105). -/
def execPreload (c : CoreId) (ra : RegNo) (level : BitVec 2) (dropped : Bool) (s : State) : Result :=
  done (runInstr s c (.preload c ra level dropped) (fun s =>
    if dropped then s.retire c
    else
      match translate s c ((s.core c).gr ra) .preload true with
      | (s, .error _) => s.retire c
      | (s, .ok x) =>
        if level = 3 ∧ !(translate s c ((s.core c).gr ra) .preloadX true).2.isOk then s.retire c
        else (preloadLine s c (x.pa / 64) level.toNat false).1.retire c))

/-- PRELOAD.F: the faults of a load, or of a fetch for level 3, then the line in the named level (R105). -/
def execPreloadF (c : CoreId) (ra : RegNo) (level : BitVec 2) (s : State) : Result :=
  done (runInstr s c (.preloadF c ra level) (fun s =>
    let va := (s.core c).gr ra
    match translate s c va (preloadKind level) true with
    | (s, .error e) => s.except c e
    | (s, .ok x) =>
      match preloadLine s c (x.pa / 64) level.toNat true with
      | (s, some f) => s.except c (ownExc va (preloadKind level) f)
      | (s, none) => s.retire c))

/-! ## DCR -/

/-- What a DCR does to a line. -/
inductive DcrOp
  | clean | inv | cinv
deriving DecidableEq, Repr

def dcrLine (s : State) (op : DcrOp) (line : Nat) : State :=
  match op with
  | .clean => cleanLine s line
  | .inv => discardLine s line
  | .cinv => flushLine s line

/-- One line of a range (R106), at its own place in the page: skipped on a Device page; a fault reports the lowest address of the
range in the page (R107). -/
def dcrOne (s : State) (c : Nat) (op : DcrOp) (start va : W64) : State × Option Exc :=
  let k : AccKind := if op = .inv then .dcrWrite else .dcrRead
  let low : W64 := if va &&& ~~~0xFFF#64 = start &&& ~~~0xFFF#64 then start else va &&& ~~~0xFFF#64
  match translate s c low k true with
  | (s, .error e) => (s, some e)
  | (s, .ok x) =>
    if x.mt.device then (s, none)
    else
      let q := s.core c
      let line := (x.pa / 4096 * 4096 + va.toNat % 4096) / 64
      match homeCheck s line q.secure q.owner.toNat (decide (op = .inv)) with
      | (s, .error f) => (s, some (ownExc low k f))
      | (s, .ok _) => (dcrLine s op line, none)

/-- Up to `n` lines from line number `i` of a range: how many were processed, and the fault that stopped them. -/
def dcrLines (c : Nat) (op : DcrOp) (start : W64) : Nat → State → Nat → State × Nat × Option Exc
  | 0, s, i => (s, i, none)
  | n + 1, s, i =>
    let va : W64 := (start &&& ~~~0x3F#64) + BitVec.ofNat 64 (64 * i)
    match dcrOne s c op start va with
    | (s, some e) => (s, i, some e)
    | (s, none) => dcrLines c op start n s (i + 1)

/-- The registers after `i` of the lines (R106, R107). -/
def dcrLeave (k : Core) (ra rb : RegNo) (i total : Nat) : Core :=
  let ga := k.gr ra
  let gb := k.gr rb
  if total = 0 then k
  else if i = total then (k.wg ra (ga + gb)).wg rb 0
  else
    let a : W64 := (ga &&& ~~~0x3F#64) + BitVec.ofNat 64 (64 * i)
    (k.wg ra a).wg rb (ga + gb - a)

/-- A DCR (R106, R107): all lines, or as far as an interrupt that is ready (`stop`) or a fault lets it. The core's earlier stores drain first. -/
def dcrInstr (s : State) (c : Nat) (op : DcrOp) (ra rb : RegNo) (stop : Option Nat) : State :=
  let k := s.core c
  let ga := k.gr ra
  let total := if k.gr rb = 0 then 0 else (ga.toNat % 64 + (k.gr rb).toNat + 63) / 64
  let n := match (if interruptReady s c then stop else none) with
    | some m => min m total
    | none => total
  let s := drainAll s c
  match dcrLines c op ga n s 0 with
  | (s, i, some e) => (s.onCore c (fun k => dcrLeave k ra rb i total)).except c e
  | (s, i, none) =>
    let s := s.onCore c (fun k => dcrLeave k ra rb i total)
    if i < total then s else s.retire c

/-- DCR.CLEAN (R106). -/
def execDcrClean (c : CoreId) (ra rb : RegNo) (stop : Option Nat) (s : State) : Result :=
  done (runInstr s c (.dcrClean c ra rb stop) (fun s => dcrInstr s c .clean ra rb stop))

/-- DCR.INV, from PL1 (R103, R106). -/
def execDcrInv (c : CoreId) (ra rb : RegNo) (stop : Option Nat) (s : State) : Result :=
  done (runInstr s c (.dcrInv c ra rb stop) (fun s =>
    needsLevel s c (.dcrInv c ra rb stop) 1 (fun s => dcrInstr s c .inv ra rb stop)))

/-- DCR.CINV (R106). -/
def execDcrCinv (c : CoreId) (ra rb : RegNo) (stop : Option Nat) (s : State) : Result :=
  done (runInstr s c (.dcrCinv c ra rb stop) (fun s => dcrInstr s c .cinv ra rb stop))

/-! ## Ordering -/

/-- FENCE.I: later fetches see the core's own stores and what is visible now (R73, R111): a fetch reads the caches as they stand, so
the store buffer drains. -/
def execFenceI (c : CoreId) (s : State) : Result := done (runInstr s c (.fenceI c) (fun s => (drainAll s c).retire c))

/-- FENCE: with writes before it and anything after it, the store buffer drains (R72, R112, R205). -/
def execFence (c : CoreId) (pr pw sr sw : Bool) (s : State) : Result :=
  done (runInstr s c (.fence c pr pw sr sw) (fun s =>
    (if pw ∧ (sr ∨ sw) then drainAll s c else s).retire c))

end Sys2Proof.Machine
end

