-- ==== Sys2Proof/Machine/Entry.lean ====
section
/-! DEFINITION. Interrupt entry (R188-R196), and how an access that waits for a response ends (R192, R193, R432, R436). -/

namespace Sys2Proof.Machine

/-- A core to which an interrupt can be delivered now: its clock runs and no entry is held. -/
def entersInterrupts (s : State) (c : Nat) : Bool :=
  let k := s.core c
  s.power.clocks && k.started && decide (k.run = .running) && k.heldEntry.isNone && !k.switching

/-! ## Accesses that cannot be repeated (R192) -/

/-- The access of an instruction, before its address is translated; `rc` none is an on-chip target. -/
def flightAccess (k : Core) : InFlight → OutAcc
  | .load kd f => ⟨f.rd, .gpr kd, kindBytes kd, 0, addrM k f, false, 0, none, 0, false, none⟩
  | .loadX kd sc f => ⟨f.rd, .gpr kd, kindBytes kd, 0, addrX k sc f, false, 0, none, 0, false, none⟩
  | .loadF wd f => ⟨f.rd, .fpr, widthBytes wd, 0, addrM k f, false, 0, none, 0, false, none⟩
  | .loadA wd f => ⟨f.rd, .gzx, widthBytes wd, 0, addrM k f, false, 0, none, 0, false, none⟩
  | .store wd f => ⟨0, .none, widthBytes wd, 0, addrM k f, true, k.gr f.rd, none, 0, false, none⟩
  | .storeX wd sc f => ⟨0, .none, widthBytes wd, 0, addrX k sc f, true, k.gr f.rd, none, 0, false, none⟩
  | .storeF wd f => ⟨0, .none, widthBytes wd, 0, addrM k f, true, k.fr f.rd, none, 0, false, none⟩
  | .storeL wd f => ⟨0, .none, widthBytes wd, 0, addrM k f, true, k.gr f.rd, none, 0, false, none⟩
  | .atomic fn f => ⟨f.rd, .gpr (if f.dword then .dw else .sw), if f.dword then 8 else 4, 0, k.gr f.ra, false, 0, none, 0, false,
      some (fn, f.dword, k.gr f.rb, k.gr f.rd)⟩

/-- It orders every earlier access before itself: a release (R71, R95). -/
def flightReleases : InFlight → Bool
  | .storeL _ _ => true
  | .atomic _ f => f.rl
  | _ => false

def OutAcc.kind (o : OutAcc) : AccKind := if o.atomic.isSome then .atomic else if o.write then .store else .load

/-- An access that R192 names and that no row of its instruction sends out: to an on-chip target a Device-S read or write, a Device-P
read or an atomic performed at its home; to a PCIe window a Device-S write. -/
def unrepeatable (a : InFlight) (x : Xlat) (o : OutAcc) : Bool :=
  let target : Bool := match regionAt x.pa with
    | .pcie _ => o.write
    | .ecam _ | .none => false
    | _ => true
  target && (match a with
    | .atomic _ f => f.rd != 0 && (f.far || decide (x.mt ≠ .wb))
    | _ => decide (x.mt = .devS) || (decide (x.mt = .devP) && !o.write))

/-- An access of R192 to an on-chip target leaves the core, after what R71 and R75 order before it; where it is none, or its
instruction has a cause of its own to report, nothing leaves. -/
def leaveCore (s : State) (c : Nat) (a : InFlight) : State × Except Exc Bool :=
  let o := flightAccess (s.core c) a
  if o.va.toNat % o.bytes ≠ 0 then (s, .ok false)
  else
    match (if o.kind = .load then translate s c o.va o.kind true else storePart s c o.va o.kind true) with
    | (s, .error e) => (s, .error e)
    | (s, .ok x) =>
      if ¬ unrepeatable a x o then (s, .ok false)
      else
        let s := if flightReleases a then drainAll s c else deviceOrder s c x.mt
        (s.onCore c (fun k => { k with out := some { o with pa := x.pa } }), .ok true)

/-- The access of the instruction at the program counter has left the core when an interrupt arrives (R192): its checks are passed. -/
def flyingOut (s : State) (c : CoreId) (a : InFlight) : State :=
  match checks s c (.onchipAccessTimeout c a) with
  | (_, some _) => s
  | (t, none) =>
    match leaveCore t c a with
    | (u, .ok true) => if u.stalled then s else u
    | _ => s

/-- INTERRUPT_ENTRY (R63, R188, R191, R192, R454, R455): the first eligible interrupt is entered, or held while an access that cannot
be repeated is out. `a` names one to an on-chip target, of the instruction at the program counter. -/
def execInterruptEntry (c : CoreId) (a : Option InFlight) (s : State) : Result :=
  doneRun s (
    if ¬ entersInterrupts s c ∨ ¬ interruptReady s c then s
    else
      match a with
      | some a => takeInterrupt (if (s.core c).out.isSome then s else flyingOut s c a) c
      | none => takeInterrupt s c)

/-- A held entry is given up for IO_ABORT: a global source goes back as displaced (R193). -/
def dropHeld (s : State) (c : Nat) : State :=
  match (s.core c).heldEntry with
  | none => s
  | some (d, _) =>
    let s := if d < 0x1000 then untakeSource s d else s
    s.onCore c (fun k => { k with heldEntry := none })

/-- The cycles that an entry was held count (event 0x022); how many is free. -/
def countHeld (s : State) (c : Nat) : State :=
  if (s.core c).heldEntry.isSome then (s.event c 0x022 (Config.cycles s.free)).useFree else s

/-- An access ends with a value: its instruction retires, and an entry it held goes on (R193). -/
def accessOk (s : State) (c : Nat) (o : OutAcc) (v : W64) : State :=
  let held := (s.core c).heldEntry
  let s := (countHeld s c).onCore c (fun k => { k with out := none, heldEntry := none })
  let s := if o.write then (s.event c 0x006 1).retire c
    else loadDone s c o.rd o.dest (sliceBytes v 0 o.bytes)
  match held with
  | some (d, t) => enterInterrupt s c t d
  | none => s

/-- An access ends with IO_ABORT: a load's destination takes all ones, an atomic's stays (R96), and an entry it held is given up (R193,
R436). -/
def accessAbort (s : State) (c : Nat) (o : OutAcc) (e : Exc) : State :=
  let s := dropHeld (countHeld s c) c
  let s := s.onCore c (fun k =>
    let k := { k with out := none }
    if o.write || o.atomic.isSome then k else k.place o.rd o.dest (ones o.bytes))
  s.except c e

/-- A configuration read of a vendor identity (R432). -/
def vendorRead (o : OutAcc) : Bool := o.cfg && !o.write && o.pa % 4096 == 0 && decide (2 ≤ o.bytes)

/-- CRS software visibility of a root port: Root Control bit 4. -/
def rrsVisible (s : State) (k p : Nat) : Bool := bitAt (cfgDword s k p rootControl) 4

/-- The request of a tag is no longer outstanding. -/
def tagDone (s : State) (k tag : Nat) : State :=
  let r := s.rc k
  s.setRc k { r with out := r.out.filter (fun x => x.tag != tag) }

/-- How a response ends an access: a value, a kind of IO_ABORT, or no end while the read repeats (R432, R436, R437). `gone` tells of a
port that has gone down. -/
def outcomeOf (s : State) (k p : Nat) (o : OutAcc) (r : Response) (timeout gone : Bool) : Option (Except Nat W64) :=
  if gone then some (.error 4)
  else if timeout then some (.error 0)
  else
    match r with
    | .ok v => some (.ok v)
    | .unsupported => if o.cfg ∧ ¬ o.write then some (.ok (ones o.bytes)) else some (.error 1)
    | .abort => some (.error 2)
    | .poisoned => some (.error 3)
    | .retryStatus =>
      if vendorRead o ∧ rrsVisible s k p then some (.ok ((ones o.bytes &&& ~~~0xFFFF#64) ||| 1)) else none

/-- The response to a non-posted request of a core, or of Wicket or Louvre, whose access completes with an error status where a core's
would abort (R432, R436). -/
def respondTo (s : State) (k tag who p : Nat) (r : Response) (timeout gone : Bool) : State :=
  if who < 192 then
    match (s.core who).out with
    | none => tagDone s k tag
    | some o =>
      if o.rc ≠ some k ∨ o.tag ≠ tag then tagDone s k tag
      else
        match outcomeOf s k p o r timeout gone with
        | some (.ok v) => accessOk (tagDone s k tag) who o v
        | some (.error n) => accessAbort (tagDone s k tag) who o (ioAbort o.va o.write n k p)
        | none => s
  else
    match (look (s.rc k).svc who).bind (·.acc) with
    | none => tagDone s k tag
    | some o =>
      if o.tag ≠ tag then tagDone s k tag
      else
        let ends (v : Option W64) : State :=
          let s := tagDone s k tag
          s.setRc k { s.rc k with svc := put (s.rc k).svc who ⟨none, some v⟩ }
        match outcomeOf s k p o r timeout gone with
        | some (.ok v) => ends (some (sliceBytes v 0 o.bytes))
        | some (.error _) => ends none
        | none => s

/-! ## On-chip targets (R193, R194) -/

/-- Class of on-chip target of R437. A core's access to DRAM or CXL memory goes to its line's home, an LLC slice (R229), so class 2 does
not arise here. -/
def targetClass (pa : Nat) : Nat :=
  match regionAt pa with
  | .vault => 1
  | .regs => 3
  | _ => 0

/-- The answer of the target: the access is performed there, a store once its home has accepted it (R330). -/
def onchipAnswer (s : State) (c : Nat) (o : OutAcc) : State :=
  let s := s.onCore c (fun k => { k with out := none })
  let x : Xlat := ⟨o.pa, .devS⟩
  let back (s : State) : State := s.onCore c (fun k => { k with out := some o })
  let fails (s : State) (e : Exc) : State := (dropHeld (countHeld s c) c).except c e
  match o.atomic with
  | some (fn, dw, b, cmp) =>
    match atomicDo s c o.va x fn dw true false b cmp with
    | (s, .old v) => accessOk (back s) c o v
    | (s, .fails e) => fails s e
    | (s, .posted) => s
  | none =>
    if o.write then
      match storeCheck s c o.va .store x with
      | (s, some e) => fails s e
      | (s, none) =>
      match performStore s c o.va x o.bytes ((sliceBytes o.val 0 o.bytes).setWidth 512) .bytes false false with
      | (s, .fails e) => fails s e
      | (s, _) => accessOk (back s) c o 0
    else
      match loadAt s c o.va .load x o.bytes with
      | (s, .val v) => accessOk (back s) c o v
      | (s, .fails e) => fails s e
      | (s, _) => s

/-- ENTRY_RESPONSE: the response of the access that holds an entry (R192, R193). An on-chip target answers with what it does. -/
def execEntryResponse (c : CoreId) (r : Response) (s : State) : Result :=
  doneOr s (
    match (s.core c).heldEntry, (s.core c).out with
    | some _, some o =>
      match o.rc with
      | some k =>
        let p := ((s.rc k).out.find? (fun x => x.tag == o.tag)).elim 0 (·.port)
        respondTo s k o.tag c p r false false
      | none =>
        match r with
        | .ok _ => onchipAnswer s c o
        | _ => s
    | _, _ => s)

/-- IO_ABORT of kind 5 (R194, R437). -/
def onchipAbort (o : OutAcc) : Exc :=
  { Exc.plain 0x13 1 o.va (5 + targetClass o.pa * 2 ^ 10) with write := o.write || o.atomic.isSome }

/-- The access times itself: its target is on chip (R194). -/
def timesItself (o : OutAcc) : Bool :=
  o.rc.isNone && (match regionAt o.pa with | .pcie _ => false | _ => true)

/-- ONCHIP_ACCESS_TIMEOUT: an access of R192 to an on-chip target is not answered in time: IO_ABORT of kind 5, and a load reads all ones
(R194, R437). It is the access that holds an entry, or that of the instruction `a`, which leaves the core. Its target never performs it
(DESIGN CHOICE, log 111). -/
def execOnchipAccessTimeout (c : CoreId) (a : InFlight) (s : State) : Result :=
  doneRun s (
    match (s.core c).heldEntry, (s.core c).out with
    | some _, some o => if timesItself o then accessAbort s c o (onchipAbort o) else s
    | _, _ =>
      runInstr s c (.onchipAccessTimeout c a) (fun s =>
        match leaveCore s c a with
        | (s, .error e) => s.except c e
        | (s, .ok false) => s
        | (s, .ok true) =>
          match (s.core c).out with
          | some o => if timesItself o then accessAbort s c o (onchipAbort o) else onchipAnswer s c o
          | none => s))

end Sys2Proof.Machine
end

