-- ==== Sys2Proof/Machine/Control.lean ====
section
/-! DEFINITION. Returns, interrupt enable, WAIT, calls, BREAK and debug (R65, R68, R115, R117-R119, R338, R344), and the events of a
core's own: unassigned encodings and line fills. -/

namespace Sys2Proof.Machine

/-! ## Returns -/

/-- A saved status that names no level of its world, or a level above `t` (R65). -/
def badReturn (st : W64) (t : Nat) (secure : Bool) : Bool :=
  let pl := fld st 0 2
  t < pl || bitAt st 2 != secure || (pl == 2 && bitAt st 2) || (pl == 3 && !bitAt st 2)

/-- ERET (R65, R60). It counts in the context it leaves (R340). -/
def execEret (c : CoreId) (s : State) : Result :=
  done (runInstr s c (.eret c) (fun s =>
    needsLevel s c (.eret c) 1 (fun s =>
      let k := (s.core c).applyAll false
      let t := k.pl
      if badReturn (k.crBase (crKey (excBase t) k.secure)) t k.secure then s.except c (illegalExc (wordOf (.eret c)))
      else ((s.retired c).cyclesPass c).onCore c (fun k => k.leave t))))

/-- The scrub of GATE.RET (R338 Table 4). -/
def Core.scrub (k : Core) : Core :=
  let k := { k with g := k.g.filter (fun p => 4 ≤ p.1 && p.1 ≤ 11), v := [], m := [], vq := [] }
  let k := ((k.crPut 0x4 (crReset 0x4)).crPut 0x5 (crReset 0x5)).crPut 0x6 (crReset 0x6)
  (k.crPut 0x2 (setFld (k.crBase 0x2) 8 5 0)).crPut 0x3 (setFld (k.crBase 0x3) 8 5 0)

/-- GATE.RET (R119, R338): from PL3 to the normal world, with the scrub and the predictor clear of R183. It counts in the
context it leaves (R340). -/
def execGateRet (c : CoreId) (s : State) : Result :=
  done (runInstr s c (.gateRet c) (fun s =>
    needsLevel s c (.gateRet c) 3 (fun s =>
      let st := ((s.core c).applyAll false).crBase 0x300
      if bitAt st 2 ∨ fld st 0 2 = 3 then s.except c (illegalExc (wordOf (.gateRet c)))
      else ((s.retired c).cyclesPass c).onCore c (fun k => ((k.leave 3).scrub).predClear))))

/-! ## Interrupt enable -/

def setIe (on : Bool) (k : Core) : Core := let k := k.applyAll false; { k with status := setBit k.status 3 on }

/-- An interrupt that is eligible when EI has retired is entered, at the instruction after it (R68). -/
def thenInterrupt (s : State) (c : Nat) : State := if interruptReady s c then takeInterrupt s c else s

/-- EI (R68). -/
def execEi (c : CoreId) (s : State) : Result :=
  done (runInstr s c (.ei c) (fun s =>
    needsLevel s c (.ei c) 1 (fun s => thenInterrupt ((s.onCore c (setIe true)).retire c) c)))

/-- DI (R68). -/
def execDi (c : CoreId) (s : State) : Result :=
  done (runInstr s c (.di c) (fun s => needsLevel s c (.di c) 1 (fun s => (s.onCore c (setIe false)).retire c)))

/-! ## WAIT -/

/-- The level checks of WAIT and SLEEP (R117): PL0, and normal PL1 under CR.HCFG.TWAIT. -/
def waitLevel (s : State) (c : Nat) (i : Instr) (body : State → State) : State :=
  needsLevel s c i (waitNeeds (s.core c)) body

/-- The deadline of a WAIT is reached (R115). -/
def deadlineMet (s : State) (d : W64) : Bool := d != 0 && d.toNat ≤ s.coreTime

/-- WAIT (R115). -/
def execWait (c : CoreId) (ra : RegNo) (s : State) : Result :=
  done (runInstr s c (.wait c ra) (fun s =>
    waitLevel s c (.wait c ra) (fun s =>
      let d := (s.core c).gr ra
      if wakePending s c ∨ deadlineMet s d then s.retire c
      else s.onCore c (fun k => { k with run := .waiting d }))))

/-- WAIT_END: a WAIT whose condition holds retires (R115, R189). -/
def execWaitEnd (c : CoreId) (s : State) : Result :=
  done (
    match (s.core c).run with
    | .waiting d =>
      if (wakePending s c ∨ deadlineMet s d) ∧ s.power.clocks then
        (s.onCore c (fun k => { k with run := .running })).retire c
      else s
    | _ => s)

/-! ## Calls -/

/-- An exception that an instruction raises as its effect (R61, R118): it restarts at the next instruction. -/
def callExc (code route : Nat) (imm : W16) : Exc := { Exc.plain code route 0 imm.toNat with nextPc := true }

/-- SVC: from PL0 only (R62, R118). -/
def execSvc (c : CoreId) (imm : W16) (s : State) : Result :=
  done (runInstr s c (.svc c imm) (fun s =>
    if (s.core c).pl = 0 then s.except c (callExc 0x21 1 imm) else s.except c (illegalExc (wordOf (.svc c imm)))))

/-- HVC: from normal PL1 or PL2 (R62, R118). -/
def execHvc (c : CoreId) (imm : W16) (s : State) : Result :=
  done (runInstr s c (.hvc c imm) (fun s =>
    needsLevel s c (.hvc c imm) 1 (fun s =>
      if (s.core c).secure then s.except c (illegalExc (wordOf (.hvc c imm))) else s.except c (callExc 0x22 2 imm))))

/-- GATE: to PL3 at offset 0x600 (R51, R62, R118). -/
def execGate (c : CoreId) (imm : W16) (s : State) : Result :=
  done (runInstr s c (.gate c imm) (fun s =>
    needsLevel s c (.gate c imm) 1 (fun s => s.except c (callExc 0x20 3 imm))))

/-! ## Debug -/

/-- Effective invasive debug of the running context (R344). -/
def invasive (s : State) (c : Nat) : Bool :=
  let k := s.core c
  let auth := s.reg .ownDbgauth 0 0 0
  let en := k.crBase 0x318
  if k.secure then bitAt auth 2 && bitAt en 2
  else bitAt auth 0 && bitAt en 0 && (!k.compartment || bitAt en 4)

/-- Effective non-invasive debug of the running context (R344): the trace unit emits the addresses of its instructions and data, which only
a probe sees (DESIGN CHOICE, log 104). -/
def nonInvasive (s : State) (c : Nat) : Bool :=
  let k := s.core c
  let auth := s.reg .ownDbgauth 0 0 0
  let en := k.crBase 0x318
  if k.secure then bitAt auth 3 && bitAt en 3
  else bitAt auth 1 && bitAt en 1 && (!k.compartment || bitAt en 4)

/-- BREAK: halts under effective invasive debug, and then resumes after it (DEDUCED, log 19); otherwise BREAK is raised (R118, R344). -/
def execBrk (c : CoreId) (imm : W16) (s : State) : Result :=
  done (runInstr s c (.brk c imm) (fun s =>
    if invasive s c then (s.retire c).onCore c (fun k => { k with run := .halted })
    else s.except c (Exc.plain 0x23 1 0 imm.toNat)))

/-- DEBUG_HALT_REQUEST: ignored without effective invasive debug (R344). A WAIT is executed again after the halt. -/
def execDebugHaltRequest (c : CoreId) (s : State) : Result :=
  done (
    let k := s.core c
    let can : Bool := s.active c || (match k.run with | .waiting _ => s.power.clocks | _ => false)
    if can ∧ invasive s c then s.onCore c (fun k => { k with run := .halted }) else s)

/-- DEBUG_RESUME (R344). -/
def execDebugResume (c : CoreId) (s : State) : Result :=
  doneRun s (match (s.core c).run with
    | .halted => s.onCore c (fun k => { k with run := .running })
    | _ => s)

/-- DEBUG_ACCESS: an access to a physical address through a halted core, with PRIV 7 and the core's WORLD and OWNER (R344, R255).
A failed check does nothing. -/
def execDebugAccess (c : CoreId) (addr : Pa) (wd : Width) (write : Bool) (v : W64) (s : State) : Result :=
  doneOr s (match (s.core c).run with
    | .halted =>
      let k := s.core c
      let x : Attr := { coreAttr s c with priv := 7 }
      let pa := addr.toNat
      let len := widthBytes wd
      if pa % len ≠ 0 then s
      else
        match regionAt pa with
        | .regs => if write then regWrite s pa len v x else (regRead s pa len x).1
        | .pcie n => (memAccess s n (pa % 2 ^ 45) write).1
        | .ecam n => (cfgAccess s n (pa % 2 ^ 28) len write (v.setWidth 512)).1
        | .none => s
        | _ =>
          if write then
            match homeWrite (chargeAccess s (c / 2) (pa / 64) (qosOf s c)) (pa / 64) k.secure k.owner.toNat (atOffset ((sliceBytes v 0 len).setWidth 512) (pa % 64))
              (enables (pa % 64) len) 0 with
            | (s, _) => s
          else (homeRead (chargeAccess s (c / 2) (pa / 64) (qosOf s c)) (pa / 64) k.secure k.owner.toNat).1
    | _ => s)

/-! ## Events of a core -/

/-- UNASSIGNED_ENCODING: ILLEGAL (R82). -/
def execUnassignedEncoding (c : CoreId) (w : W32) (s : State) : Result :=
  done (runInstr s c (.unassignedEncoding c w) (fun s => s.except c (illegalExc w)))

/-- LINE_FILL: a granted line arrives at its core (R235), and the oldest waiting access of the core, a store to it, is performed before a
snoop can take the line (R232). -/
def execLineFill (c : CoreId) (line : BitVec 46) (s : State) : Result :=
  doneOr s (
    let t := serveReady (receiveFill s c line.toNat)
    match (t.core c).sb with
    | [] => t
    | e :: _ => if s.fills.length ≠ t.fills.length ∧ e.pa / 64 = line.toNat then drainStore t c else t)

end Sys2Proof.Machine
end

