-- ==== Sys2Proof/Machine/CrAccess.lean ====
section
/-! DEFINITION. CRR and CRW of every control register (R54, R55, R57-R59, R464): levels, values read, and what a write does. -/

namespace Sys2Proof.Machine

/-- The lowest level that reaches a control register, if its number is assigned (R54, R55). -/
def crLevel (n : Nat) : Option Nat :=
  if n = 0 ∨ n = 1 ∨ n = 8 then some 0
  else if n = 0x44 ∨ n = 0x46 then some 1
  else (crAt n).map (·.level)

/-- Registers of the router that only the normal world's PL1 and PL2, and PL3, reach (chapter 16; DEDUCED, log 20). -/
def crNormalOnly (n : Nat) : Bool := n == 0x40 || n == 0x46 || n == 0x48

/-- Counters that PL0 reads while CR.PMCTL.UREAD is 1 (R464). -/
def crCounter (n : Nat) : Bool := n == 0x81 || (0x88 ≤ n && n < 0x90)

/-- The level needed for an access, where the core's level does not do. -/
def crNeeds (s : State) (c n level : Nat) (write : Bool) : Option Nat :=
  let k := s.core c
  let level := if write ∧ n = 0 then 1 else level
  if crCounter n ∧ ¬ write ∧ bitAt (k.crEff 0x80) 10 then none
  else if k.pl < level then some level
  else if crNormalOnly n ∧ k.secure ∧ k.pl < 3 then some 3
  else none

/-- CR.STATUS as a CRR reads it, with the latest UOPEN (R59). -/
def Core.statusRead (k : Core) : W64 :=
  setBit k.status 4 (k.pendD.foldl (fun acc p => if p.num = 0 then bitAt p.val 4 else acc) (bitAt k.status 4))

/-- CR.LIPEND. -/
def lipend (s : State) (c : Nat) : W64 :=
  [0, 1, 2, 8, 9].foldl (fun v n => setBit v n (localPending s c n)) 0

/-- The BAD bit of a casement pair (chapter 06): computed when the high half is read. -/
def caseBit (k : Core) (n key : Nat) (v : W64) : W64 :=
  let b := n / 0x10
  if (b = 0x13 ∨ b = 0x23 ∨ b = 0x33) ∧ n % 2 = 1 then
    setBit v 63 (casementBad (k.crLast (key - 1)) v (b == 0x23))
  else v

/-- What a CRR returns (R54, R59). -/
def crRead (s : State) (c n : Nat) : W64 :=
  let k := s.core c
  let key := crKey n k.secure
  if n = 0 then k.statusRead
  else if n = 1 then BitVec.ofNat 64 c
  else if n = 8 then BitVec.ofNat 64 s.coreTime
  else if n = 0x44 then 0
  else if n = 0x46 then lipend s c
  else if n = 0x211 then setBit (setBit (k.crBase 0x211) 0 (bitAt (k.crLast 0x211) 0)) 2 s.power.pll
  else if n = 9 then
    let o := k.owner.toNat
    setBit (setFld (k.crLast 9) 8 4 (if o < 4095 then s.regF .lvOcap 0 o 0 12 4 else 0)) 12 (bitAt s.power.dieHold (dieOf c) || s.power.uncHold)
  else if n = 0xA3 then
    let p := k.crLast 0xA2
    setBit (k.crLast 0xA3) 1 (decide (fld p 16 16 ≤ fld p 0 16))
  else caseBit k n key (k.crLast key)

/-- A CRR clears the RC field of CR.SMPSTAT (R6). -/
def crReadEffect (n : Nat) (k : Core) : Core :=
  if n = 0xA3 then k.crPut 0xA3 (setFld (k.crBase 0xA3) 16 16 0) else k

/-- Events that CR.PMSELn and CR.SMPCFG take (Table 1 of 17, R469). -/
def pmEventOk (e : Nat) : Bool := e ≤ 9 || (0x10 ≤ e && e ≤ 0x1A) || (0x20 ≤ e && e ≤ 0x22)
def smpEventOk (e : Nat) : Bool := (2 ≤ e && e ≤ 9) || e == 0x18

/-- VLMAX of a CR.VCFG (R125). -/
def vlmaxOf (cfg : W64) : Nat := 512 * 2 ^ fld cfg 2 2 / (8 * 2 ^ fld cfg 0 2)

/-- The value a CRW leaves, by the access code of each field (R6, R54). -/
def crWritten (k : Core) (d : CrDef) (n : Nat) (old v : W64) : W64 :=
  if k.pl < d.wlevel then old
  else if n = 5 then BitVec.ofNat 64 (min (fld v 0 10) (vlmaxOf (k.crLast 4)))
  else
    let new := d.fields.foldl (fun acc f => f.write acc v) old
    if 0x90 ≤ n ∧ n < 0x98 ∧ ¬ pmEventOk (fld v 0 10) then setFld new 0 10 (fld old 0 10)
    else if n = 0xA0 ∧ ¬ smpEventOk (fld v 0 10) then setFld new 0 10 (fld old 0 10)
    else new

/-- A CRW enters its window (class D, R57) or waits for CTLSYNC (class S, R58). The bits a write leaves alone are those that show the
old value. -/
def Core.crWrite (k : Core) (use n : Nat) (v : W64) : Core :=
  let key := crKey n k.secure
  if n = 0 then { k with pendD := k.pendD ++ [⟨0, v, ~~~0x10#64, 8, use⟩] }
  else
    match crAt n with
    | none => k
    | some d =>
      let new := crWritten k d n (k.crLast key) v
      match d.cls with
      | .d => { k with pendD := k.pendD ++ [⟨key, new, crWritten k d n 0 v ^^^ crWritten k d n (BitVec.allOnes 64) v, 8, use⟩],
                       lage := if 0x48 ≤ n ∧ n < 0x4B then del k.lage (n - 0x48) else k.lage,
                       smpLeft := if n = 0xA0 then 0 else k.smpLeft }
      | .s => { k with pendS := k.pendS.filter (fun p => p.1 != key) ++ [(key, new)] }
      | .n => k

/-- The effect of a CRW beyond the register: end of interrupt, and the virtual CPU resident on the core (R454, R459). -/
def crEffect (s : State) (c n : Nat) (v : W64) : State :=
  if n = 0x44 then endInterrupt s c (fld v 0 12)
  else if n = 0x45 then setResident s c (if bitAt v 15 then some (fld v 0 12) else none)
  else s

/-- CRR gd, n. That of CR.VRESUME, CR.FENV or CR.DRM waits for the vector queue (R59, R135). Between that of a counter and a next one lie 1 to
4 cycles (R468). -/
def crrInstr (s : State) (c : Nat) (i : Instr) (rd : RegNo) (n : Nat) : State :=
  match crLevel n with
  | none => s.except c (illegalExc (wordOf i))
  | some level =>
    match crNeeds s c n level false with
    | some need => s.except c (privExc (s.core c) (wordOf i) need)
    | none =>
      let s := if n = 2 ∨ n = 3 ∨ n = 6 then s.onCore c Core.vqDrain else s
      let v := crRead s c n
      let s := s.onCore c (fun k => (crReadEffect n k).wg rd v)
      if n = 0x81 ∨ (0x88 ≤ n ∧ n < 0x90) then s.retireIn c (1 + Config.cycles s.free % 4) else s.retire c

/-- CRW n, ga. -/
def crwInstr (s : State) (c : Nat) (i : Instr) (n : Nat) (ra : RegNo) : State :=
  match crLevel n with
  | none => s.except c (illegalExc (wordOf i))
  | some level =>
    match crNeeds s c n level true with
    | some need => s.except c (privExc (s.core c) (wordOf i) need)
    | none =>
      let v := (s.core c).gr ra
      (crEffect (s.onCore c (fun k => k.crWrite s.free n v)) c n v).retire c

/-- CRR (R54, R59, R121). -/
def execCrr (c : CoreId) (rd : RegNo) (n : BitVec 12) (s : State) : Result :=
  done (runInstr s c (.crr c rd n) (fun s => crrInstr s c (.crr c rd n) rd n.toNat))

/-- CRW (R54, R57-R59, R121). -/
def execCrw (c : CoreId) (n : BitVec 12) (ra : RegNo) (s : State) : Result :=
  done (runInstr s c (.crw c n ra) (fun s => crwInstr s c (.crw c n ra) n.toNat ra))

/-- CRW of CR.IEOI: end of interrupt (R454). -/
def execIeoi (c : CoreId) (ra : RegNo) (s : State) : Result :=
  done (runInstr s c (.ieoi c ra) (fun s => crwInstr s c (.ieoi c ra) 0x44 ra))

/-- CRW of CR.VCPU: the virtual CPU resident on the core (R459). -/
def execVcpuWrite (c : CoreId) (ra : RegNo) (s : State) : Result :=
  done (runInstr s c (.vcpuWrite c ra) (fun s => crwInstr s c (.vcpuWrite c ra) 0x45 ra))

end Sys2Proof.Machine
end

