-- ==== Sys2Proof/Machine/Dram.lean ====
section
/-! DEFINITION. What memory controllers and vault ports do at their own events (chapters 08 to 10), and bits that change by
themselves (R303). -/

namespace Sys2Proof.Machine

/-- A write that fails its check at a target is discarded and counted by its kind (R331). -/
def deniedWrite (s : State) (pa : Nat) (x : Attr) : State :=
  if x.priv = 4 then denyLast (s.bump .ownDenycnt 0 0 0 0 16 1) pa x.owner.toNat
  else if x.priv = 5 then denyLast (s.bump .ownDenycnt 0 0 0 16 16 1) pa x.owner.toNat
  else lateWrite s pa x.owner.toNat

/-- A read that fails its check: counted for a device or an offload engine. -/
def deniedRead (s : State) (pa : Nat) (x : Attr) : State :=
  if x.priv = 4 ∨ x.priv = 5 then deniedWrite s pa x else s

/-- A DRAM line that requests reach: the map is published and window 0 holds it. -/
def dramLine (s : State) (line : Nat) : Bool :=
  s.map.isSome && decide (regionOf (64 * line) = .dram) && inWindow s 0 (64 * line) && s.rootClock && !s.power.memWait

/-- MC_READ (R275, R280, R289-R296, R322). -/
def execMcRead (line : BitVec 46) (x : Attr) (s : State) : Result :=
  doneOr s (
    let l := line.toNat
    let s := { s with qos := x.qos.toNat }
    if ¬ dramLine s l then s
    else
      match targetCheck s l x.secure x.owner.toNat false with
      | (s, .error _) => deniedRead s (64 * l) x
      | (s, .ok (ko, _)) => (mcReadLine s (chanOf s l) l ko).1)

/-- MC_WRITE: with the issuer's attributes, or with none as of an LLC victim, whose key owner is the page's (R280, R290). -/
def execMcWrite (line : BitVec 46) (data : W512) (poison : BitVec 8) (x : Option Attr) (s : State) : Result :=
  doneOr s (
    let l := line.toNat
    if ¬ dramLine s l then s
    else
      match x with
      | none => writeUnowned s l 0x1000 data poison
      | some x =>
        let s := { s with qos := x.qos.toNat }
        match targetCheck s l x.secure x.owner.toNat true with
        | (s, .error _) => deniedWrite s (64 * l) x
        | (s, .ok (ko, _)) => mcWriteLine s (chanOf s l) l ko data poison)

/-- WRITE_QUEUE_DRAIN: with no read waiting, the whole queue is issued (R281). -/
def execWriteQueueDrain (n : Fin 16) (s : State) : Result :=
  done (if s.rootClock then (List.range (s.mc n).wq.length).foldl (fun s _ => drainOne s n) s else s)

/-- UETHR_WINDOW_END (R296, R299). -/
def execUethrWindowEnd (n : Fin 16) (s : State) : Result :=
  done (if ¬ s.rootClock then s else s.setMc n { s.mc n with ueCount := 0, devCount := [] })

/-- REFRESH_DUE: one same-bank command of a rank falls due (R283, R284). While the rank is busy it is owed, four commands an
interval; at four intervals refresh goes first until two are owed. -/
def execRefreshDue (n : Fin 16) (rank : Fin 8) (bank : Fin 4) (busy : Bool) (s : State) : Result :=
  done (
    let mc := s.mc n
    if ¬ mc.trained ∨ mapOnly s n ∨ ¬ s.rootClock then s
    else
      let owed := lookD [] mc.debt rank ++ [bank.val]
      let pay := if ¬ busy then owed.length else if 16 ≤ owed.length then owed.length - 8 else 0
      let mc := (owed.take pay).foldl (fun mc b => mc.refreshBank rank b) mc
      let s := s.setMc n { mc with debt := store [] mc.debt rank (owed.drop pay) }
      pmBump s (mcStop n) 7 pay 0)

/-- ZQ_CALIBRATION: a rank is calibrated, which changes no state of the part (R285). -/
def execZqCalibration (_n : Fin 16) (_rank : Fin 8) (s : State) : Result := done s

/-- One sensor's reading: three failures in a row are logged (R271). -/
def sensorRead (s : State) (n i : Nat) (r : Option Nat) : State :=
  let mc := s.mc n
  match r with
  | some _ => s.setMc n { mc with fails := mc.fails.set i 0 }
  | none =>
    let k := nthD 0 mc.fails i + 1
    let s := s.setMc n { mc with fails := mc.fails.set i k }
    if k = 3 then s.logErr .notice 5 n 0x29 0 4095 (BitVec.ofNat 64 i) else s

/-- DIMM_THERMAL_READ: the highest reading is the channel's temperature; above 95 °C, or with a sensor failed three times, the
channel is hot, which is logged as it becomes so (R271, R283). -/
def execDimmThermalRead (n : Fin 16) (readings : List (Option Nat)) (s : State) : Result :=
  done (
    if ¬ s.rootClock then s else
    let s := (List.range 3).foldl (fun s i => sensorRead s n i (nthD none readings i)) s
    let vals := (readings.take 3).filterMap id
    let mc := s.mc n
    let t := if vals.isEmpty then mc.temp else vals.foldl max 0
    let hot : Bool := 95 < t || mc.fails.any (fun k => 3 ≤ k)
    let s := s.setMc n { mc with temp := t, hot := hot }
    if hot ∧ ¬ mc.hot then s.logErr .notice 5 n 0x28 0 4095 (BitVec.ofNat 64 (t % 256)) else s)

/-- Reads of a rank that are pending at its controller are answered with poison (R285, R305): those whose fill is on its way. -/
def poisonReads (s : State) (m : PubMap) (n rank : Nat) : State :=
  { s with fills := s.fills.map (fun f =>
      let d := dramAt m (locOf s n f.line)
      if f.mem ∧ regionOf (64 * f.line) = .dram ∧ d.chan = n ∧ d.rank = rank then
        { f with c := f.c.map (fun x => { x with poison := allPoison }) }
      else f) }

/-- CHN_ALERT: the command for a line is replayed up to three times; the fourth failure in a row is an uncorrectable channel event
(R285). Both records give the line (DEDUCED, log 98). -/
def execChnAlert (n : Fin 16) (line : BitVec 46) (s : State) : Result :=
  done (
    let l := line.toNat
    match s.map with
    | none => s
    | some m =>
      if ¬ dramLine s l ∨ (dramAt m l).chan ≠ n.val then s
      else
        let mc := s.mc n
        let rank := (dramAt m (locOf s n l)).rank
        let k := lookD 0 mc.parity rank + 1
        if k ≤ 3 then
          (s.setMc n { mc with parity := put mc.parity rank k }).logErr .corrected 5 n 0x24 (64 * l) (pageOwner s l) (BitVec.ofNat 64 k)
        else
          (poisonReads (s.setMc n { mc with parity := del mc.parity rank }) m n rank).logErr .deferred 5 n 0x25 (64 * l) (pageOwner s l)
            (dramDetail s (locOf s n l) 0xF 0x1F false false))

/-- REMAP_DONE (R316). -/
def execRemapDone (n : Fin 16) (k : Fin 16) (s : State) : Result := done (if s.rootClock then mcRemapCopy s n k else s)

/-- VAULT_REMAP_DONE: requests held for the line proceed (R266). -/
def execVaultRemapDone (n : Fin 96) (k : Fin 8) (s : State) : Result :=
  doneOr s (
    if s.power.clocks then serveReady (vltRemapCopy s n k) else s)

/-- VAULT_REQUEST: the port, as home of the line, serves a read or a write of bytes (R263-R265). -/
def execVaultRequest (line : BitVec 46) (o : MemOp) (x : Attr) (s : State) : Result :=
  doneOr s (
    let l := line.toNat
    let s := { s with qos := x.qos.toNat }
    if ¬ isVault l ∨ ¬ s.power.clocks then s
    else
      match o with
      | .read => match homeRead s l x.secure x.owner.toNat with
        | (s, .ok _) => s
        | (s, .error _) => deniedRead s (64 * l) x
      | .write d en p => match homeWrite s l x.secure x.owner.toNat d en.toNat p with
        | (s, .ok _) => s
        | (s, .error _) => deniedWrite s (64 * l) x)

/-- SCRUB_READ of a controller's subchannel or a vault port (R317, R318). -/
def execScrubRead (b : Block) (sub : Bool) (s : State) : Result :=
  done (
    let s := lapBegin s b
    if ¬ scrubs s b then s
    else
      match b with
      | .mc n => scrubMc s n n.isLt sub
      | .vlt n => scrubVlt s n n.isLt
      | _ => s)

/-- The elapsed time of a lap that is overdue, in ms: at least LIMIT hours. -/
def overdueMs (s : State) (start limit : Nat) : W64 := BitVec.ofNat 64 (max (lapMs s start) (limit * 3600000))

/-- SCRUB_OVERDUE: one record for the lap, and OVERDUE (R318). -/
def execScrubOverdue (b : Block) (s : State) : Result :=
  done (
    match b with
    | .mc n =>
      let mc := s.mc n
      if ¬ s.rootClock ∨ mc.lapStart = 0 ∨ bitAt (s.reg .mcScrubstat n 0 0) 32 then s
      else (s.setRegF .mcScrubstat n 0 0 32 1 1).logErr .notice 5 n 0x2A 0 4095
        (overdueMs s mc.lapStart (s.regF .mcScrubcfg n 0 0 17 12))
    | .vlt n =>
      let v := lookD ⟨0, 0⟩ s.vlts n
      if ¬ s.power.clocks ∨ v.lapStart = 0 ∨ bitAt (s.reg .vltScrubstat n 0 0) 32 then s
      else (s.setRegF .vltScrubstat n 0 0 32 1 1).logErr .notice 3 n 0x2A 0 4095
        (overdueMs s v.lapStart (s.regF .vltScrubcfg n 0 0 17 12))
    | _ => s)

/-! ## Transient upsets (R303) -/

/-- A bit of a word: a second single upset of it makes a double one. -/
def flip (one two : BitVec 8) (w : Nat) (double : Bool) : BitVec 8 × BitVec 8 :=
  if double ∨ bitAt one w then (setBit one w false, setBit two w true) else (setBit one w true, two)

/-- The tag of the L1D way that holds a line fails: the way is invalidated, and lines of its set held in M or E are poisoned in L2. -/
def l1dTagUpset (s : State) (c line : Nat) : State :=
  let k := s.core c
  let set := line % 128
  let hit (p : Nat × L2Line) : Bool := p.1 % 128 == set && (decide (p.2.st = .m) || decide (p.2.st = .e))
  let n := (k.l2.filter hit).length
  let l2 := k.l2.map (fun (p : Nat × L2Line) =>
    if p.1 % 128 = set then
      (p.1, { (if p.1 = line then setL1 p.2 .d false else p.2) with
        c := if hit p then { p.2.c with poison := allPoison } else p.2.c })
    else p)
  (s.setCore c { k with l2 := l2 }).logErr .deferred 0 c 0x04 0 4095 (BitVec.ofNat 64 (set + n % 256 * 256))

/-- TRANSIENT_UPSET: stored bits change; a cache or memory finds it at the next use, tags at once. Caches and the vault hold nothing
unless the part is supplied and not stopped (R474). -/
def execTransientUpset (u : Upset) (s : State) : Result :=
  done (
    if s.power.errFatal ∨ ¬ s.power.pwrgood ∨ ¬ s.power.vaon then s else
    match u with
    | .l1i c line => s.onCore c (fun k => match look k.l2 line.toNat with
        | some x => if x.l1i then { k with l2 := put k.l2 line.toNat { x with badI := true } } else k
        | none => k)
    | .l1dData c line w double => s.onCore c (fun k => match look k.l2 line.toNat with
        | some x =>
          let (a, b) := flip x.oneD x.twoD w double
          if x.l1d then { k with l2 := put k.l2 line.toNat { x with oneD := a, twoD := b } } else k
        | none => k)
    | .l1dTag c line =>
      if ((look (s.core c).l2 line.toNat).map (·.l1d)).getD false then l1dTagUpset s c line.toNat else s
    | .l2Data c line w double => s.onCore c (fun k => match look k.l2 line.toNat with
        | some x =>
          let (a, b) := flip x.c.one x.c.two w double
          { k with l2 := put k.l2 line.toNat { x with c := { x.c with one := a, two := b } } }
        | none => k)
    | .l2Tag c set double =>
      if double then s.fatal 0x05 true 1 c 0 (cacheDetail s 2 set) else s.logErr .corrected 1 c 0x01 0 4095 (cacheDetail s 2 set)
    | .llcData slice line w double =>
      if sliceOf line.toNat ≠ slice then s
      else match llcFind s line.toNat with
        | some (way, x) =>
          let (a, b) := flip x.c.one x.c.two w double
          { s with llc := put s.llc (llcKey line.toNat way) { x with c := { x.c with one := a, two := b } } }
        | none => s
    | .llcTag slice set double =>
      if double then s.fatal 0x05 true 2 slice 0 (cacheDetail s 3 set)
      else s.logErr .corrected 2 slice 0x01 0 4095 (cacheDetail s 3 set)
    | .vault pa double =>
      let line := pa.toNat / 64
      let b := pa.toNat % 64
      let x := s.note line
      if regionOf pa.toNat ≠ .vault then s
      else if double ∨ bitAt x.v1 b then s.setNote line { x with v1 := setBit x.v1 b false, v2 := setBit x.v2 b true }
      else s.setNote line { x with v1 := setBit x.v1 b true }
    | .dram line symbols =>
      let x := s.note line.toNat
      if regionOf (64 * line.toNat) ≠ .dram ∨ x.poison then s
      else s.setNote line.toNat { x with syms := (symbols.map (·.val)).foldl (fun l i => if l.contains i then l else l ++ [i]) x.syms })

end Sys2Proof.Machine
end

