-- ==== Sys2Proof/Machine/Homes.lean ====
section
/-! DEFINITION. Requests, snoops, evictions and victims taken one message at a time (R230-R239), far atomics (R94) and ownership
probes (R330). -/

namespace Sys2Proof.Machine

/-- The line is in the core's writeback buffer and its request has not reached the home: the L2 asks for it again only after that. -/
def unsent (s : State) (c line : Nat) : Bool :=
  (look (s.core c).wbb line).isSome && !s.homeq.any (fun q => q.core == c && q.line == line && decide (q.req = .back))

/-- An L2 sends a request for a first-level cache or the walker: a charged one needs a token of its stop, and none passes one already
held (R286-R288). It waits in the core while a limit of R236 is reached, or while the home withholds credits (R233). -/
def l2Request (s : State) (c line : Nat) (r : Req) (l : L1) : State :=
  if ¬ s.power.clocks ∨ outstanding s c line ∨ ¬ (regionOf (64 * line)).memory ∨ ¬ populated s (64 * line)
      ∨ missFull s c l ∨ queueFull s line ∨ unsent s c line then s
  else
    let s := (s.event c 0x012 1).onCore c (fun k => { k with asks := put k.asks line l })
    let stop := c / 2
    let who := identOf s c
    if charged line r then
      if stopHolds s stop then { s with heldReqs := s.heldReqs ++ [⟨stop, c, line, r, who⟩] }
      else homeArrive (takeToken s stop) ⟨c, line, r, who⟩
    else homeArrive s ⟨c, line, r, who⟩

/-- A request for a line that the L2 does not hold. -/
def missRequest (s : State) (c line : Nat) (r : Req) (l : L1) : State :=
  if (l2Of s c line).isSome then s else l2Request s c line r l

/-- READ_SHARED (R230). -/
def execReadShared (c : CoreId) (line : BitVec 46) (l : L1) (s : State) : Result :=
  doneOr s (missRequest s c line.toNat .readShared l)

/-- READ_UNIQUE (R230). -/
def execReadUnique (c : CoreId) (line : BitVec 46) (s : State) : Result := doneOr s (missRequest s c line.toNat .readUnique .d)

/-- UPGRADE: of a line held in S or O (R230). -/
def execUpgrade (c : CoreId) (line : BitVec 46) (s : State) : Result :=
  doneOr s (match l2Of s c line.toNat with
    | some x => if x.st = .s ∨ x.st = .o then l2Request s c line.toNat .upgrade .d else s
    | none => s)

/-- CLAIM_LINE (R230). -/
def execClaimLine (c : CoreId) (line : BitVec 46) (s : State) : Result := doneOr s (missRequest s c line.toNat .claim .d)

/-- WRITE_FULL (R230, R240). -/
def execWriteFull (c : CoreId) (line : BitVec 46) (data : W512) (s : State) : Result :=
  doneOr s (missRequest s c line.toNat (.writeFull data 0) .d)

/-- An L2 evicts a line (R230, R232), where the writeback buffer, or for an Evict of S its home, has room. A line already in the buffer is
sent where it was not. -/
def evictRequest (s : State) (c line : Nat) (dirty : Bool) : State :=
  let s := settleL2 s c line
  match l2Of s c line with
  | none => if unsent s c line ∧ ¬ s.heldReqs.any (fun q => q.core == c && q.line == line) then sendBack s c line else s
  | some x =>
    if decide (x.st = .m ∨ x.st = .o) ≠ dirty ∨ outstanding s c line ∨ (look (s.core c).wbb line).isSome ∨ ¬ mayLeave s c line then s
    else leaveL2 s c line

/-- WRITE_BACK (R230, R232). -/
def execWriteBack (c : CoreId) (line : BitVec 46) (s : State) : Result := doneOr s (serveReady (evictRequest s c line.toNat true))

/-- EVICT (R230, R232). -/
def execEvict (c : CoreId) (line : BitVec 46) (s : State) : Result := doneOr s (serveReady (evictRequest s c line.toNat false))

/-- A snoop of a kind reaches a core: held while a granted fill of the line is on its way, else answered (R232). -/
def snoopArrives (s : State) (c line : Nat) (k : Snp) : State :=
  if s.fills.any (fun f => f.core == c && f.line == line) then s
  else
    match look s.txns line with
    | some t => if t.snoops.any (fun x => x.1 == c && decide (x.2.1 = k)) then answer s c line else s
    | none => s

/-- SNP_SHARED (R230). -/
def execSnpShared (c : CoreId) (line : BitVec 46) (s : State) : Result := doneOr s (serveReady (snoopArrives s c line.toNat .shared))

/-- A snoop that takes a line from a core: the loads that R172 executes again are counted; how many there are rests on what the
pipeline holds (DESIGN CHOICE, log 89). -/
def snoopTakes (s : State) (c line : Nat) (k : Snp) : State :=
  let had := ((look (s.core c).l2 line).map (·.l1d)).getD false
  let t := snoopArrives s c line k
  if had ∧ (look (t.core c).l2 line).isNone then t.useFree.event c 0x01A (Config.loadRedo t.free % 193) else t

/-- SNP_UNIQUE (R230). -/
def execSnpUnique (c : CoreId) (line : BitVec 46) (s : State) : Result := doneOr s (serveReady (snoopTakes s c line.toNat .unique))

/-- SNP_INV (R230). -/
def execSnpInv (c : CoreId) (line : BitVec 46) (s : State) : Result := doneOr s (serveReady (snoopTakes s c line.toNat .inv))

/-- SNOOP_RESPONSE: the home may grant, and the next request of the line follows (R231). -/
def execSnoopResponse (c : CoreId) (line : BitVec 46) (s : State) : Result :=
  doneOr s (serveReady (respond s c line.toNat))

/-- OWNERSHIP_PROBE: the home makes a store's check (R330). -/
def execOwnershipProbe (c : CoreId) (line : BitVec 46) (s : State) : Result :=
  doneOr s (let k := s.core c; (homeCheck s line.toNat k.secure k.owner.toNat true).1)

/-- VICTIM_ACCEPTED: the reserved way is filled; requests held for its lines, and the write-backs that waited for a place in the victim
buffer, proceed (R238, R239). -/
def execVictimAccepted (slice : Fin 96) (line : BitVec 46) (s : State) : Result :=
  doneOr s (serveReady (acceptVictim s slice line.toNat))

/-- FAR_ATOMIC: the oldest store-buffer entry of a core, a posted atomic that goes to its home, is executed there (R94, R95). -/
def execFarAtomic (c : CoreId) (s : State) : Result :=
  doneOr s (match (s.core c).sb with
    | [] => s
    | e :: _ => match e.kind with
      | .atomic _ _ far _ => if far ∨ e.mt ≠ .wb then drainStore s c else s
      | _ => s)

/-- REGULATOR_TOKEN: the request at the head of a stop's queue receives its token (R287, R288), and leaves when its home gives it
credit (R233). -/
def execRegulatorToken (stop : Fin 132) (s : State) : Result :=
  doneOr s (match s.heldReqs.find? (fun q => q.stop == stop.val) with
    | none => s
    | some q => if queueFull s q.line then s
      else homeArrive (takeToken { s with heldReqs := s.heldReqs.erase q } stop) ⟨q.core, q.line, q.req, q.who⟩)

end Sys2Proof.Machine
end

