-- ==== Sys2Proof/Machine/Integer.lean ====
section
/-! DEFINITION. Integer instructions (R83-R87) and the scalar carry-less multiply and CRC-32C instructions (R122, R123). -/

namespace Sys2Proof.Machine

/-- OP: gd from ga and gb; CMOV keeps gd (R83). -/
def execOp (c : CoreId) (fn : OpFn) (f : RRR) (s : State) : Result :=
  coreInstr s c (.op c fn f) (fun _ k => k.wg f.rd (opVal fn (k.gr f.ra) (k.gr f.rb) (k.gr f.rd)))

/-- DIV, DIVU, REM, REMU (R84). -/
def execDiv (c : CoreId) (fn : DivFn) (f : RRR) (s : State) : Result :=
  coreInstr s c (.div c fn f) (fun _ k => k.wg f.rd (divVal fn (k.gr f.ra) (k.gr f.rb)))

/-- OPW: on the low 32 bits, sign-extended (R85). -/
def execOpw (c : CoreId) (fn : OpwFn) (f : RRR) (s : State) : Result :=
  coreInstr s c (.opw c fn f) (fun _ k => k.wg f.rd (opwVal fn (k.gr f.ra) (k.gr f.rb)))

/-- ADDI (R86). -/
def execAddi (c : CoreId) (f : RI) (s : State) : Result :=
  coreInstr s c (.addi c f) (fun _ k => k.wg f.rd (k.gr f.ra + immI f))

/-- ANDI (R86). -/
def execAndi (c : CoreId) (f : RI) (s : State) : Result :=
  coreInstr s c (.andi c f) (fun _ k => k.wg f.rd (k.gr f.ra &&& immI f))

/-- ORI (R86). -/
def execOri (c : CoreId) (f : RI) (s : State) : Result :=
  coreInstr s c (.ori c f) (fun _ k => k.wg f.rd (k.gr f.ra ||| immI f))

/-- XORI (R86). -/
def execXori (c : CoreId) (f : RI) (s : State) : Result :=
  coreInstr s c (.xori c f) (fun _ k => k.wg f.rd (k.gr f.ra ^^^ immI f))

/-- SLTI (R86). -/
def execSlti (c : CoreId) (f : RI) (s : State) : Result :=
  coreInstr s c (.slti c f) (fun _ k => k.wg f.rd (b2w ((k.gr f.ra).slt (immI f))))

/-- SLTIU (R86). -/
def execSltiu (c : CoreId) (f : RI) (s : State) : Result :=
  coreInstr s c (.sltiu c f) (fun _ k => k.wg f.rd (b2w ((k.gr f.ra).ult (immI f))))

/-- ADDIW (R86). -/
def execAddiw (c : CoreId) (f : RI) (s : State) : Result :=
  coreInstr s c (.addiw c f) (fun _ k => k.wg f.rd (sx 32 (k.gr f.ra + immI f)))

/-- LUI (R86). -/
def execLui (c : CoreId) (f : RU) (s : State) : Result :=
  coreInstr s c (.lui c f) (fun _ k => k.wg f.rd (immU f))

/-- ADDPC: relative to this instruction (R86). -/
def execAddpc (c : CoreId) (f : RU) (s : State) : Result :=
  coreInstr s c (.addpc c f) (fun _ k => k.wg f.rd (k.pc + immU f))

/-- SLLI (R87). -/
def execSlli (c : CoreId) (f : RSh) (s : State) : Result :=
  coreInstr s c (.slli c f) (fun _ k => k.wg f.rd (k.gr f.ra <<< f.sh.toNat))

/-- SRLI (R87). -/
def execSrli (c : CoreId) (f : RSh) (s : State) : Result :=
  coreInstr s c (.srli c f) (fun _ k => k.wg f.rd (k.gr f.ra >>> f.sh.toNat))

/-- SRAI (R87). -/
def execSrai (c : CoreId) (f : RSh) (s : State) : Result :=
  coreInstr s c (.srai c f) (fun _ k => k.wg f.rd ((k.gr f.ra).sshiftRight f.sh.toNat))

/-- RORI (R87). -/
def execRori (c : CoreId) (f : RSh) (s : State) : Result :=
  coreInstr s c (.rori c f) (fun _ k => k.wg f.rd ((k.gr f.ra).rotateRight f.sh.toNat))

/-- SLLIW (R87). -/
def execSlliw (c : CoreId) (f : RSh) (s : State) : Result :=
  coreInstr s c (.slliw c f) (fun _ k => k.wg f.rd (sx 32 (((k.gr f.ra).setWidth 32 : W32) <<< (f.sh.toNat % 32))))

/-- SRLIW (R87). -/
def execSrliw (c : CoreId) (f : RSh) (s : State) : Result :=
  coreInstr s c (.srliw c f) (fun _ k => k.wg f.rd (sx 32 (((k.gr f.ra).setWidth 32 : W32) >>> (f.sh.toNat % 32))))

/-- SRAIW (R87). -/
def execSraiw (c : CoreId) (f : RSh) (s : State) : Result :=
  coreInstr s c (.sraiw c f) (fun _ k => k.wg f.rd (sx 32 (((k.gr f.ra).setWidth 32 : W32).sshiftRight (f.sh.toNat % 32))))

/-- CLMUL: bits 63 to 0 of the carry-less product (R122). -/
def execClmul (c : CoreId) (f : RRR) (s : State) : Result :=
  coreInstr s c (.clmul c f) (fun _ k => k.wg f.rd (clmulLo (k.gr f.ra) (k.gr f.rb)))

/-- CLMULH: bits 127 to 64 (R122). -/
def execClmulh (c : CoreId) (f : RRR) (s : State) : Result :=
  coreInstr s c (.clmulh c f) (fun _ k => k.wg f.rd (clmulHi (k.gr f.ra) (k.gr f.rb)))

/-- CRC32C over the low bytes of gb, lowest first, with no initial value and no final XOR (R122, R123). -/
def execCrc32c (c : CoreId) (n : CrcLen) (f : RRR) (s : State) : Result :=
  coreInstr s c (.crc32c c n f) (fun _ k =>
    k.wg f.rd ((crcBytes ((k.gr f.ra).setWidth 32) (leBytes (crcCount n) (k.gr f.rb).toNat)).setWidth 64))

end Sys2Proof.Machine
end

