-- ==== Sys2Proof/Machine/LoadStore.lean ====
section
/-! DEFINITION. Loads and stores (R88-R91), atomics (R92-R96), and the events of a core's loads and store buffer (R168-R172). -/

namespace Sys2Proof.Machine

/-- A load of the M format. -/
def loadM (s : State) (c : Nat) (i : Instr) (f : RM) (d : Dest) (bytes : Nat) (acquire : Bool) : Result :=
  done (runInstr s c i (fun s => loadInstr s c f.rd d bytes (addrM (s.core c) f) acquire))

/-- A store of the M format; rd is the data source. -/
def storeM (s : State) (c : Nat) (i : Instr) (f : RM) (bytes : Nat) (fp release : Bool) : Result :=
  done (runInstr s c i (fun s =>
    let k := s.core c
    storeInstr s c bytes (addrM k f) (if fp then k.fr f.rd else k.gr f.rd) release))

/-- LD.B (R88, R90). -/
def execLdB (c : CoreId) (f : RM) (s : State) : Result := loadM s c (.ldB c f) f (.gpr .sb) 1 false

/-- LD.H (R88, R90). -/
def execLdH (c : CoreId) (f : RM) (s : State) : Result := loadM s c (.ldH c f) f (.gpr .sh) 2 false

/-- LD.W (R88, R90). -/
def execLdW (c : CoreId) (f : RM) (s : State) : Result := loadM s c (.ldW c f) f (.gpr .sw) 4 false

/-- LD (R88, R90). -/
def execLd (c : CoreId) (f : RM) (s : State) : Result := loadM s c (.ld c f) f (.gpr .dw) 8 false

/-- LD.BU (R88, R90). -/
def execLdBu (c : CoreId) (f : RM) (s : State) : Result := loadM s c (.ldBu c f) f (.gpr .ub) 1 false

/-- LD.HU (R88, R90). -/
def execLdHu (c : CoreId) (f : RM) (s : State) : Result := loadM s c (.ldHu c f) f (.gpr .uh) 2 false

/-- LD.WU (R88, R90). -/
def execLdWu (c : CoreId) (f : RM) (s : State) : Result := loadM s c (.ldWu c f) f (.gpr .uw) 4 false

/-- ST.B (R88, R90). -/
def execStB (c : CoreId) (f : RM) (s : State) : Result := storeM s c (.stB c f) f 1 false false

/-- ST.H (R88, R90). -/
def execStH (c : CoreId) (f : RM) (s : State) : Result := storeM s c (.stH c f) f 2 false false

/-- ST.W (R88, R90). -/
def execStW (c : CoreId) (f : RM) (s : State) : Result := storeM s c (.stW c f) f 4 false false

/-- ST (R88, R90). -/
def execSt (c : CoreId) (f : RM) (s : State) : Result := storeM s c (.st c f) f 8 false false

/-- FLD.H: every higher bit of vd is zero (R88, R49). -/
def execFldH (c : CoreId) (f : RM) (s : State) : Result := loadM s c (.fldH c f) f .fpr 2 false

/-- FLD.W: every higher bit of vd is zero (R88, R49). -/
def execFldW (c : CoreId) (f : RM) (s : State) : Result := loadM s c (.fldW c f) f .fpr 4 false

/-- FLD.D: every higher bit of vd is zero (R88, R49). -/
def execFldD (c : CoreId) (f : RM) (s : State) : Result := loadM s c (.fldD c f) f .fpr 8 false

/-- FST.H (R88). -/
def execFstH (c : CoreId) (f : RM) (s : State) : Result := storeM s c (.fstH c f) f 2 true false

/-- FST.W (R88). -/
def execFstW (c : CoreId) (f : RM) (s : State) : Result := storeM s c (.fstW c f) f 4 true false

/-- FST.D (R88). -/
def execFstD (c : CoreId) (f : RM) (s : State) : Result := storeM s c (.fstD c f) f 8 true false

/-- LDA: acquire load, zero-extended, naturally aligned (R88, R90, R71). -/
def execLda (c : CoreId) (wd : Width) (f : RM) (s : State) : Result := loadM s c (.lda c wd f) f .gzx (widthBytes wd) true

/-- STL: release store, naturally aligned (R88, R90, R71). -/
def execStl (c : CoreId) (wd : Width) (f : RM) (s : State) : Result := storeM s c (.stl c wd f) f (widthBytes wd) false true

/-- LDX (R89). -/
def execLdx (c : CoreId) (k : LdKind) (sc : BitVec 2) (f : RRR) (s : State) : Result :=
  done (runInstr s c (.ldx c k sc f) (fun s => loadInstr s c f.rd (.gpr k) (kindBytes k) (addrX (s.core c) sc f) false))

/-- STX (R89). -/
def execStx (c : CoreId) (wd : Width) (sc : BitVec 2) (f : RRR) (s : State) : Result :=
  done (runInstr s c (.stx c wd sc f) (fun s =>
    let k := s.core c
    storeInstr s c (widthBytes wd) (addrX k sc f) (k.gr f.rd) false))

/-- ST64: the whole of vd to an aligned 64-byte block (R91), after vd's scoreboard bit clears (R135). -/
def execSt64 (c : CoreId) (vd ra : RegNo) (imm : BitVec 10) (s : State) : Result :=
  done (runInstr s c (.st64 c vd ra imm) (fun s =>
    let s := s.onCore c (fun k => k.vqWait [vd.toNat] [])
    let k := s.core c
    let va := addr64 k ra imm
    if va.toNat % 64 ≠ 0 then s.except c (alignExc va true)
    else
      let (s, w) := storeLine s c va .st64 (k.vr vd.toNat) .line
      storeEnd s c 64 va w))

/-! ## Atomics -/

/-- An atomic instruction: with rd = g0 posted, CAS then comparing with zero (R93, R95). -/
def atomicInstr (s : State) (c : Nat) (i : Instr) (fn : AtFn) (f : AtF) : Result :=
  done (runInstr s c i (fun s =>
    let k := s.core c
    let va := k.gr f.ra
    match atomicAt s c va fn f.dword f.far f.rl (f.rd == 0) (k.gr f.rb) (k.gr f.rd) with
    | (s, .fails e) => s.except c e
    | (s, .posted) => (s.event c 0x006 1).retire c
    | (s, .old v) => ((s.onCore c (fun k => k.wg f.rd (atOld f.dword v))).event c 0x005 1).retire c))

/-- AT.SWAP (R92-R96). -/
def execAtSwap (c : CoreId) (f : AtF) (s : State) : Result := atomicInstr s c (.atSwap c f) .swap f

/-- AT.CAS (R92-R96). -/
def execAtCas (c : CoreId) (f : AtF) (s : State) : Result := atomicInstr s c (.atCas c f) .cas f

/-- AT.ADD (R92-R96). -/
def execAtAdd (c : CoreId) (f : AtF) (s : State) : Result := atomicInstr s c (.atAdd c f) .add f

/-- AT.AND (R92-R96). -/
def execAtAnd (c : CoreId) (f : AtF) (s : State) : Result := atomicInstr s c (.atAnd c f) .and f

/-- AT.OR (R92-R96). -/
def execAtOr (c : CoreId) (f : AtF) (s : State) : Result := atomicInstr s c (.atOr c f) .or f

/-- AT.XOR (R92-R96). -/
def execAtXor (c : CoreId) (f : AtF) (s : State) : Result := atomicInstr s c (.atXor c f) .xor f

/-- AT.SMAX (R92-R96). -/
def execAtSmax (c : CoreId) (f : AtF) (s : State) : Result := atomicInstr s c (.atSmax c f) .smax f

/-- AT.SMIN (R92-R96). -/
def execAtSmin (c : CoreId) (f : AtF) (s : State) : Result := atomicInstr s c (.atSmin c f) .smin f

/-- AT.UMAX (R92-R96). -/
def execAtUmax (c : CoreId) (f : AtF) (s : State) : Result := atomicInstr s c (.atUmax c f) .umax f

/-- AT.UMIN (R92-R96). -/
def execAtUmin (c : CoreId) (f : AtF) (s : State) : Result := atomicInstr s c (.atUmin c f) .umin f

/-! ## Events of loads and the store buffer -/

/-- STORE_DRAIN: the oldest entry of the store buffer drains (R168). Power and clocks are needed, not a running program. -/
def execStoreDrain (c : CoreId) (s : State) : Result :=
  doneOr s (if s.power.clocks then drainStore s c else s)

/-- PARTIAL_OVERLAP_RELEASE: the last overlapping store has drained, and the waiting load reads L1D (R169, R170). -/
def execPartialOverlapRelease (c : CoreId) (s : State) : Result :=
  doneOr s (if s.power.clocks then releaseWait s c else s)

/-- LD_SSB_REDO: a load that ran ahead of a store with an unknown address is discarded and runs again (R171). Instructions here
run in order, so nothing is discarded; the event counts while CR.PREDCTL.SSBOFF is 0. -/
def execLdSsbRedo (c : CoreId) (s : State) : Result :=
  done (if s.active c ∧ ¬ bitAt (s.cr c 0x110) 2 then s.event c 0x019 1 else s)

end Sys2Proof.Machine
end

