-- ==== Sys2Proof/Machine/VoltLink.lean ====
section
/-! DEFINITION. The Louvre voltage link (chapter 01): frames with their tries (R27 to R30), the commands of Table 6, limits on SET_VID
(R32), and sweeps after LVL_ALERT_N (R35). -/

namespace Sys2Proof.Machine

/-- A frame with its effect on the regulator. -/
def command (s : State) (r cmd : Nat) (fails : List LinkFail) (f : Vr → Vr) : Result :=
  done (
    if ¬ linkOn s then s
    else
      match sendFrame s r cmd fails with
      | (s, true) => s.setVr r (f (s.vr r))
      | (s, false) => s)

/-- A write frame to one regulator, or to all of them: none answers a broadcast (R30). -/
def writeFrame (s : State) (rail : Option (Fin 9)) (cmd : Nat) (fails : List LinkFail) (f : Nat → Vr → Vr) : Result :=
  match rail with
  | some r => command s r cmd fails (f r)
  | none => done (if linkOn s then (List.range 9).foldl (fun s r => s.setVr r (f r (s.vr r))) s else s)

/-- A new slew rate holds from where the output stands. -/
def Vr.setSlew (v : Vr) (now : Nat) (slew : BitVec 4) : Vr := { v with slew := slew, base := v.out now, begin := max v.begin now }

/-- A shutdown bit, [2], [3] or [4], is set. -/
def Vr.shutdown (v : Vr) : Bool := fld (v.sticky.setWidth 64) 1 3 != 0

/-- PING (R30): no state changes. -/
def execPing (rail : Fin 9) (fails : List LinkFail) (s : State) : Result := command s rail 0 fails id

/-- The SET_VID codes hardware lets pass (R32): those of the rail's range in Table 4. -/
def vidAllowed (r code : Nat) : Bool :=
  let between (lo hi : Nat) : Bool := lo ≤ code && code ≤ hi
  if r < 4 then between 60 150
  else
    match r with
    | 4 => between 106 114 || code == 80
    | 5 => between 96 104 || code == 70
    | 6 => between 106 114
    | 7 => between 164 176
    | _ => between 115 125

/-- SET_VID (R31, R32). -/
def execSetVid (rail : Fin 9) (code : Byte) (fails : List LinkFail) (s : State) : Result :=
  done (
    if ¬ linkOn s then s
    else if ¬ vidAllowed rail code.toNat then
      s.logErr .notice 8 0 0x47 0 4095 (BitVec.ofNat 64 (rail.val + code.toNat * 2 ^ 8))
    else
      match sendFrame s rail 1 fails with
      | (s, true) => vrTarget s rail code.toNat
      | (s, false) => s)

/-- SET_SLEW. -/
def execSetSlew (rail : Option (Fin 9)) (slew : BitVec 4) (fails : List LinkFail) (s : State) : Result :=
  writeFrame s rail 2 fails (fun _ v => v.setSlew s.now slew)

/-- A regulator turned on ramps to its target from what its output has left; turned off, its output falls as the regulator does
(R491). -/
def Vr.switch (v : Vr) (now rail : Nat) (on discharge : Bool) : Vr :=
  if on then
    if v.enabled then { v with discharge := false }
    else { v with enabled := true, discharge := false, base := Config.residual now rail % (v.base + 1), begin := now + usec }
  else { v with enabled := false, discharge := discharge, base := v.out now }

/-- ENABLE. -/
def execEnable (rail : Option (Fin 9)) (on discharge : Bool) (fails : List LinkFail) (s : State) : Result :=
  writeFrame s rail 3 fails (fun r v => v.switch s.now r on discharge)

/-- SET_MODE: modes 2 and 3 are not supported values, which the regulator answers with NAK-COMMAND. -/
def execSetMode (rail : Option (Fin 9)) (mode : BitVec 2) (fails : List LinkFail) (s : State) : Result :=
  writeFrame s rail 4 (if mode.toNat < 2 then fails else [.nakCommand]) (fun _ v => if mode.toNat < 2 then { v with mode := mode } else v)

/-- READ_VOUT: the regulator's own measurement (R491). -/
def execReadVout (rail : Fin 9) (mv : W16) (fails : List LinkFail) (s : State) : Result :=
  command s rail 5 fails (fun v => { v with vout := mv })

/-- READ_IOUT. -/
def execReadIout (rail : Fin 9) (units : W16) (fails : List LinkFail) (s : State) : Result :=
  command s rail 6 fails (fun v => { v with iout := units })

/-- READ_TEMP. -/
def execReadTemp (rail : Fin 9) (halfDeg : W16) (fails : List LinkFail) (s : State) : Result :=
  command s rail 7 fails (fun v => { v with temp := halfDeg })

/-- RDATA of READ_STATUS. -/
def statusWord (s : State) (r : Nat) : W16 := BitVec.ofNat 16 (b2n (vrOk s r) + (s.vr r).sticky.toNat * 2)

/-- DETAIL of a status read: the regulator and RDATA[7:0]. -/
def statusDetail (s : State) (r : Nat) : W64 := BitVec.ofNat 64 (r + fld ((statusWord s r).setWidth 64) 0 8 * 2 ^ 8)

/-- A status read with a shutdown bit: fatal (R25). -/
def faultRead (s : State) (r : Nat) : State := s.fatal 0x41 true 8 0 0 (statusDetail s r)

/-- READ_STATUS: a shutdown bit read is a fatal error (R25). -/
def execReadStatus (rail : Fin 9) (fails : List LinkFail) (s : State) : Result :=
  done (
    if ¬ linkOn s then s
    else
      match sendFrame s rail 8 fails with
      | (s, true) =>
        let s' := s.setVr rail { s.vr rail with status := statusWord s rail }
        if (s.vr rail).shutdown then faultRead s' rail else s'
      | (s, false) => s)

/-- Sticky bits cleared by a mask. -/
def Vr.clear (v : Vr) (mask : W16) : Vr := { v with sticky := v.sticky &&& ~~~(mask.extractLsb' 1 6) }

/-- CLEAR_STATUS. -/
def execClearStatus (rail : Option (Fin 9)) (mask : W16) (fails : List LinkFail) (s : State) : Result :=
  writeFrame s rail 9 fails (fun _ v => v.clear mask)

/-- READ_ID. -/
def execReadId (rail : Fin 9) (id : W16) (fails : List LinkFail) (s : State) : Result :=
  command s rail 10 fails (fun v => { v with ident := id })

/-- READ_STATUS of Louvre's own: sticky bits are logged once, as VR_FAULT for a shutdown bit where `faults`, else as VR_WARN (R35,
R23). The records of one sweep are made before its fatal error stops the clocks. -/
def statusRead (s : State) (r : Nat) (faults : Bool) : State :=
  let v := s.vr r
  let s := s.setVr r { v with status := statusWord s r }
  if v.sticky = 0 then s
  else if faults ∧ v.shutdown then faultRead s r
  else s.logErr .notice 8 0 0x40 0 4095 (statusDetail s r)

/-- CLEAR_STATUS of every sticky bit read. -/
def statusClear (s : State) (r : Nat) : State := s.setVr r { s.vr r with sticky := 0 }

/-! ## Rails (R22, R23) -/

/-- Start-up codes of the link rails (R23). -/
def railCode (r : Nat) : Nat := nthD 90 [90, 90, 90, 90, 110, 100, 110, 170, 120] r

/-- The rails in the order of R22. -/
def railOrder : List Nat := [4, 5, 6, 7, 8, 0, 1, 2, 3]

/-- A rail comes up at a code. -/
def railUp (s : State) (r code : Nat) : State := s.setVr r ((s.vr r).settled s.now code)

/-- The frames of R23 to a rail, then ENABLE; the regulator answers them. -/
def railFrame (s : State) (r k : Nat) : State :=
  let v := s.vr r
  match k with
  | 0 => statusRead s r false
  | 1 => statusClear s r
  | 2 => s.setVr r (v.setSlew s.now 3)
  | 3 => s.setVr r (v.target s.now (railCode r))
  | _ => s.setVr r (v.switch s.now r true false)

/-- The command number of each of those frames (R30 Table 6). -/
def railCmd (k : Nat) : Nat := nthD 3 [8, 9, 2, 1, 3] k

def railFrames (s : State) (r n : Nat) : State := (List.range n).foldl (fun s k => railFrame s r k) s

/-- The frames of R23 and ENABLE that hardware sends of itself, up to one that is not acted on. -/
def hwFrames (r : Nat) : List Nat → State → State × Bool
  | [], s => (s, true)
  | k :: ks, s =>
    match hwSend s r (railCmd k) with
    | (s, true) => hwFrames r ks (railFrame s r k)
    | (s, false) => (s, false)

/-- A rail restored after a package sleep (R422, R479): one that is off is sent the frames of R23 and ENABLE and reports VOUT_OK, and
then, as one that stayed on, SET_VID. A rail whose regulator does not act on them stays as it is (DESIGN CHOICE, log 106). -/
def railBack (s : State) (r code : Nat) : State :=
  match (if (s.vr r).enabled then (s, true) else hwFrames r (List.range 5) s) with
  | (s', true) =>
    let s' := if (s.vr r).enabled then s' else railUp s' r (railCode r)
    if (s'.vr r).code.toNat = code then s' else hwFrame s' r 1 (fun s => railUp s r code)
  | (s', false) => s'

/-! ## Sweeps (R35) -/

/-- The tries of a frame of a sweep. -/
def sweepTries (deaf : List SweepFail) (r : Nat) (clear : Bool) : List LinkFail :=
  match deaf.find? (fun d => d.rail.val == r && d.clear == clear) with
  | some d => d.fails
  | none => []

/-- One enabled regulator in a sweep (R35): read, and cleared where a sticky bit was read. -/
def sweepOne (deaf : List SweepFail) (s : State) (r : Nat) : State :=
  match sendFrame s r 8 (sweepTries deaf r false) with
  | (s, false) => s
  | (s, true) =>
    let s' := statusRead s r true
    if (s.vr r).sticky = 0 then s'
    else
      match sendFrame s' r 9 (sweepTries deaf r true) with
      | (s, true) => statusClear s r
      | (s, false) => s

/-- LVL_ALERT_SWEEP: the bits regulators have set, then READ_STATUS of every enabled one in address order (R35). -/
def execLvlAlertSweep (raised : List (Fin 9 × BitVec 6)) (deaf : List SweepFail) (s : State) : Result :=
  done (
    if ¬ linkOn s then s
    else
      let s := raised.foldl (fun s p => s.setVr p.1 { s.vr p.1 with sticky := (s.vr p.1).sticky ||| p.2 }) s
      (List.range 9).foldl (fun s r => if (s.vr r).enabled then sweepOne deaf s r else s) s)

end Sys2Proof.Machine
end

