-- ==== Sys2Proof/Machine/Sleep.lean ====
section
/-! DEFINITION. Sleep (R116, R417-R427): refusal checks, the steps of entry, abort, wake of cores and of the package, and the return of
memory. -/

namespace Sys2Proof.Machine

/-! ## Refusal checks (R425) -/

/-- A core that R418 counts as Closed. -/
def isClosed (k : Core) : Bool := !k.started || (match k.run with | .closed _ => true | _ => false)

/-- The package level of a SLEEP Closed of core `c`, as the refusal log codes it: none where no package entry begins (R418). -/
def pkgAsked (s : State) (c : Nat) : Option Nat :=
  let t := s.regF .lvPkgcfg 0 0 0 0 2
  if t = 0 ∨ 3 ≤ t ∨ s.cores.any (fun p => p.1 != c && !isClosed p.2) then none else some (2 + t)

/-- The state a SLEEP asks for: 0 Ajar, 1 Latched, 2 Closed, 3 and 4 the package states. -/
def askedState (s : State) (c level : Nat) : Nat := if level = 2 then (pkgAsked s c).getD 2 else level

def linkActive (s : State) : Bool :=
  (List.range 8).any (fun k => (List.range 4).any (fun p => linkState s k p == 2 || linkState s k p == 3))

def oecBusy (s : State) : Bool :=
  s.vis.any (fun p => p.2.queues.any (fun q => !q.2.isEmpty)) || s.lanes.any (fun p => p.2.job.isSome)

/-- The physical rank of a DRAM line, and whether its controller keeps it (R277, R297). -/
def physRank (m : PubMap) (line : Nat) : Nat := (dramAt m line).rank % (if m.r2 then 2 else 1)
def rankKept (s : State) (m : PubMap) (line : Nat) : Bool :=
  (s.regF .mcKeep (dramAt m line).chan 0 0 0 2).testBit (physRank m line)

/-- A rank not in KEEP holds part of the page ownership table. -/
def tableDropped (s : State) : Bool :=
  match s.map with
  | none => false
  | some m => (List.range 3).any (fun k =>
      let lo := tableBase s k / 64
      decide (regionOf (tableBase s k) = .dram)
        && (List.range ((2 * tablePages s k + 63) / 64)).any (fun i => !rankKept s m (lo + i)))

/-- The first check of Table 7 that fails. -/
def sleepRefuser (s : State) (c level : Nat) : Option Nat :=
  let k := s.core c
  let a := askedState s c level
  let en := s.regF .lvSleepen 0 0 0 (if k.secure then 8 else 0) 3
  if ¬ k.secure ∧ tileClaimed s (c / 2) then some 0x01
  else if ¬ en.testBit level then some 0x02
  else if 3 ≤ a ∧ linkActive s then some 0x03
  else if 3 ≤ a ∧ oecBusy s then some 0x04
  else if a = 4 ∧ tableDropped s then some 0x05
  else if 3 ≤ a ∧ s.cores.any (fun p => decide (p.2.run = .halted)) then some 0x07
  else if a ≤ 2 ∧ Config.firmwareRefuses s.free then some 0x08
  else none

/-! ## Entry (R419 Table 4) -/

/-- Which steps before the point of no return apply to a state. -/
def stepApplies (a k : Nat) : Bool :=
  match k with
  | 2 => true
  | 3 | 5 => 1 ≤ a
  | 4 => 2 ≤ a
  | 6 | 8 => 3 ≤ a
  | 7 => a == 4
  | _ => false

/-- Step 7: a way of the LLC is written back where dirty; a locked one is emptied and counted (R245). -/
def cleanWay (s : State) (key : Nat) : State :=
  match look s.llc key with
  | none => s
  | some x =>
    let s := if x.dirty then writeUnowned s x.line x.c.entry x.c.data x.c.poison else s
    if (s.regF .llcLock (key / 32768) 0 0 0 16).testBit (key % 16) then
      ({ s with llc := del s.llc key }).bump .llcEvcnt (key / 32768) 0 0 0 16 1
    else { s with llc := put s.llc key { x with dirty := false } }

def cleanLlc (s : State) : State :=
  let s := (s.victims.map (fun v => (v.slice, v.line))).foldl (fun s v => acceptVictim s v.1 v.2) s
  (s.llc.map (·.1)).foldl cleanWay s

/-- Step 8: a running controller is quiesced, its queue written, its settings saved. -/
def parkMc (s : State) (n : Nat) : State :=
  let s := (List.range (s.mc n).wq.length).foldl (fun s _ => drainOne s n) s
  let v := s.reg .mcCtl n 0 0
  if ¬ bitAt v 0 then s
  else
    let s := s.setMc n { s.mc n with saved := [v] }
    (s.setReg .mcCtl n 0 0 (setBit v 0 false)).setReg .mcStat n 0 0 (setBit (s.reg .mcStat n 0 0) 0 true)

def entryStep (s : State) (c a k : Nat) : State :=
  if ¬ stepApplies a k then s
  else
    match k with
    | 2 => (drainAll s c).onCore c (fun q => { q with vq := [] })
    | 4 => emptyL2 s c
    | 5 => s.onCore c (fun q => { q with saved := true })
    | 6 => recallAll { s with irt := { s.irt with held := true } }
    | 7 => cleanLlc s
    | 8 => (List.range 16).foldl parkMc s
    | _ => s

/-- Steps `k` up to 8 in order. -/
def entrySteps (s : State) (c a k : Nat) : State := ((List.range 9).filter (k ≤ ·)).foldl (fun s j => entryStep s c a j) s

/-- What a core loses when it is power-gated (R417, R483). -/
def Core.gated (k : Core) : Core :=
  { k with tlb := [], ptrs := [], pred := Pred.empty, streams := [], inbox := [], raising := false, goal := k.cur,
           l2 := k.l2.map (fun (p : Nat × L2Line) => (p.1, { p.2 with l1d := false, l1i := false, wrote := false, oneD := 0, twoD := 0, badI := false })) }

/-- Rails of a package state (R20 Table 4): core rails, VMEM and VIO off, VUNC and VVAULT at retention. -/
def sleepRails (s : State) (partial_ : Bool) : State :=
  let off (s : State) (r : Nat) : State := hwFrame s r 3 (fun s => s.setVr r ((s.vr r).switch s.now r false false))
  let s := [0, 1, 2, 3, 6, 8].foldl off s
  let s := if partial_ then off s 4 else hwSetVid s 4 80
  hwSetVid s 5 70

/-- The lines of dropped ranks lose their contents (R297). -/
def dropRanks (s : State) : State :=
  match s.map with
  | none => s
  | some m =>
    let keep (line : Nat) : Bool := decide (regionOf (64 * line) ≠ .dram) || rankKept s m line
    { s with mem := s.mem.filter (fun p => keep (p.1 / 64)), notes := s.notes.filter (fun p => keep p.1) }

/-- IDE and links of a root complex after its power has gone (R443). -/
def linksLost (s : State) (k : Nat) : State :=
  let s := (List.range 4).foldl (fun s p => s.setReg .rcPortstat k p 0 (setFld (s.reg .rcPortstat k p 0) 0 12 0)) s
  let s := (List.range 8).foldl (fun s i =>
    let v := s.reg .rcIdectl k i 0
    s.setReg .rcIdectl k i 0 (setBit (setBit v 0 false) 13 false)) s
  (s.setRc k { s.rc k with halted := [], keys := [], keyReq := [] }).setRegF .rcShalt k 0 0 16 16 0

/-- Some physical rank of a controller was dropped. -/
def ranksDropped (s : State) (n : Nat) : Bool :=
  let ranks := if bitAt (s.reg .mcDimmcfg n 0 0) 2 then 2 else 1
  !(mapOnly s n) && (List.range ranks).any (fun p => !(s.regF .mcKeep n 0 0 0 2).testBit p)

/-- Controllers that must fill dropped ranks before they run again (R298). -/
def markFills (s : State) : State :=
  (List.range 16).foldl (fun s n =>
    if (s.mc n).saved.isEmpty ∨ ¬ ranksDropped s n then s else s.setMc n { s.mc n with filling := true }) s

/-- Step 9 of a package entry: PLL and rails, and what loses its power (R360, R417, R443, R483). -/
def packageDown (s : State) (partial_ : Bool) : State :=
  let s := sleepRails s partial_
  let s := (List.range 8).foldl linksLost s
  let s := { s with keys := [], iommus := [], ownc := s.ownc.filter (fun x => 16 ≤ x.agent && x.agent < 112) }
  let s := if partial_ then markFills (dropRanks { s with llc := [] }) else s
  { s with power := { s.power with pkg := if partial_ then .shutteredPartial else .shuttered, pll := false, clocks := false,
                                   meshPll := false, meshSlow := false, memWait := true, gpioRef := s.power.gpio,
                                   raises := [], trims := [] } }

/-- Step 9: the point of no return. -/
def enterState (s : State) (c a : Nat) (rd : RegNo) : State :=
  match a with
  | 0 => s.onCore c (fun k => { k with run := .ajar rd })
  | 1 => lowerRail (s.onCore c (fun k => { k.gated with run := .latched rd })) (dieOf c)
  | 2 => lowerRail (s.onCore c (fun k => { k.gated with run := .closed rd })) (dieOf c)
  | _ => packageDown (s.onCore c (fun k => { k.gated with run := .closed rd })) (a == 4)

/-- SLEEP ends with an outcome in gd (R116). -/
def sleepEnd (s : State) (c : Nat) (rd : RegNo) (outcome : Nat) : State :=
  (s.onCore c (fun k => { k.wg rd (BitVec.ofNat 64 outcome) with run := .running })).retire c

/-- An abort or refusal of a SLEEP is logged, and it ends. -/
def sleepStopped (s : State) (c a : Nat) (rd : RegNo) (aborted : Bool) (step refuser : Nat) : State :=
  sleepEnd (refuse s c a aborted step refuser (s.core c).owner.toNat 0) c rd (if aborted then 1 else 2)

/-- An entry that stays at step `k` while a wake event may abandon it, or goes to its end (DESIGN CHOICE, log 27). -/
def beginEntry (s : State) (c a : Nat) (rd : RegNo) (hold : Option (Fin 9)) : State :=
  let s := if 3 ≤ a then { s with power := { s.power with entering := some c } } else s
  match hold with
  | some k =>
    if stepApplies a k then
      (((List.range 9).filter (· < k.val)).foldl (fun s j => entryStep s c a j) s).onCore c
        (fun q => { q with run := .entering a k rd })
    else enterState (entrySteps s c a 2) c a rd
  | none => enterState (entrySteps s c a 2) c a rd

/-- SLEEP: the pending interrupt of R116, the refusal checks, then entry. -/
def sleepBody (s : State) (c level : Nat) (rd : RegNo) (hold : Option (Fin 9)) : State :=
  let a := askedState s c level
  if interruptReady s c then sleepStopped s c a rd true 1 0x10
  else
    match sleepRefuser s c level with
    | some r => sleepStopped s.useFree c a rd false 1 r
    | none =>
      let s := s.useFree
      if wakePending s c then sleepStopped (drainAll s c) c a rd true 2 0x10 else beginEntry s c a rd hold

def sleepInstr (s : State) (c : Nat) (i : Instr) (level : Nat) (rd : RegNo) (hold : Option (Fin 9)) : Result :=
  done (runInstr s c i (fun s => waitLevel s c i (fun s => sleepBody s c level rd hold)))

/-- SLEEP.AJAR (R116, R117, R417). -/
def execSleepAjar (c : CoreId) (rd : RegNo) (h : Option (Fin 9)) (s : State) : Result :=
  sleepInstr s c (.sleepAjar c rd h) 0 rd h

/-- SLEEP.LATCHED (R116, R117, R417). -/
def execSleepLatched (c : CoreId) (rd : RegNo) (h : Option (Fin 9)) (s : State) : Result :=
  sleepInstr s c (.sleepLatched c rd h) 1 rd h

/-- SLEEP.CLOSED (R116, R117, R417, R418). -/
def execSleepClosed (c : CoreId) (rd : RegNo) (h : Option (Fin 9)) (s : State) : Result :=
  sleepInstr s c (.sleepClosed c rd h) 2 rd h

/-- An entry held at a step goes to its end. -/
def finishEntry (s : State) (c : Nat) : State :=
  match (s.core c).run with
  | .entering a k rd => enterState (entrySteps s c a k) c a rd
  | _ => s

/-! ## Wake sources (R422 Table 5, R426) -/

def wakeBit : WakeSrc → Nat
  | .i3c => 0 | .wakeN => 1 | .gpio => 2 | .timer => 3 | .swd => 4

/-- A source is enabled; for a GPIO edge the edge detector has looked already. -/
def wakeEnabled (s : State) : WakeSrc → Bool
  | .i3c => bitAt (s.reg .lvPkgcfg 0 0 0) 8
  | .wakeN => bitAt (s.reg .lvPkgcfg 0 0 0) 9
  | .timer => s.reg .lvAoncmp 0 0 0 != 0
  | .gpio => s.reg .lvGpiowake 0 0 0 != 0
  | .swd => true

def noteWake (s : State) (src : WakeSrc) : State := s.setRegF .lvWakesrc 0 0 0 (wakeBit src) 1 1

/-! ## Abort (R420, R426) -/

/-- The steps done before step `k` are undone (R419 Table 4). -/
def undoEntry (s : State) (c k : Nat) : State :=
  let s := s.onCore c (fun q => { q with saved := false })
  let s := { s with power := { s.power with entering := if s.power.entering = some c then none else s.power.entering } }
  if 6 < k then resumeRouter { s with irt := { s.irt with held := false } } else s

/-- An entry is abandoned at its step. Of the causes that stand, the lowest code is recorded, which an interrupt has (R426). -/
def abortEntry (s : State) (c refuser : Nat) : State :=
  match (s.core c).run with
  | .entering a k rd => sleepStopped (undoEntry s c k) c a rd true k (if wakePending s c then 0x10 else refuser)
  | _ => s

/-- ENTRY_ABORT: a wake event before the point of no return; only interrupts abort a core state. -/
def execEntryAbort (c : CoreId) (src : Option WakeSrc) (s : State) : Result :=
  doneOr s (
    match (s.core c).run, src with
    | .entering _ _ _, none => if wakePending s c then abortEntry s c 0x10 else s
    | .entering a _ _, some w => if 3 ≤ a ∧ wakeEnabled s w then abortEntry (noteWake s w) c (0x11 + wakeBit w) else s
    | _, _ => s)

/-! ## Wake of a core (R421) -/

/-- The register SLEEP writes, of a sleeping core. -/
def sleepReg (k : Core) : Option RegNo :=
  match k.run with
  | .ajar rd | .latched rd | .closed rd => some rd
  | _ => none

/-- A sleeping core resumes with outcome 0. -/
def resume (s : State) (c : Nat) : State :=
  match sleepReg (s.core c) with
  | none => s
  | some rd => sleepEnd (s.onCore c (fun k => { k with saved := false })) c rd 0

/-- CORE_WAKE. -/
def execCoreWake (c : CoreId) (s : State) : Result :=
  done (
    if (sleepReg (s.core c)).isSome ∧ (s.core c).started ∧ wakePending s c ∧ s.power.clocks then moveCore (resume s c) c
    else s)

/-! ## Wake of the package (R422) -/

/-- A wake core: core 0 and the entering core, where they have been started. -/
def wakeCores (s : State) : List Nat :=
  let e := s.power.entering.getD 0
  (if e = 0 then [0] else [0, e]).filter (fun c => (s.core c).started)

/-- A core after a package wake runs from the wake clock until software selects the PLL (R39): the wake clears CR.CLKSEL.SRC and a
pending write of it (DESIGN CHOICE, log 82). -/
def Core.onWakeClock (k : Core) : Core :=
  { k.crPut 0x211 (setFld (k.crBase 0x211) 0 2 0) with pendS := k.pendS.filter (fun p => p.1 != 0x211), switching := false }

/-- The router's edge detectors go on: a pin whose level has changed since they last sampled it is an edge (R15). -/
def edgesAfterSleep (s : State) : State :=
  (List.range 16).foldl (fun s p =>
    let level := bitAt s.power.gpio p
    if bitAt s.power.gpioRef p ≠ level ∧ bitAt (s.reg .irtGpioedge 0 0 0) (if level then p else 16 + p) then raiseEvent s (128 + p)
    else s) s

/-- The package wakes (R422): the rails in the order of R22, those of dies without a wake core at the P15 voltage (R406), then the
router, and the wake cores at P10. -/
def wakePackage (s : State) (src : WakeSrc) : State :=
  let s := noteWake s src
  let ws := wakeCores s
  let code (r : Nat) : Nat := if r < 4 ∧ ¬ ws.any (fun c => dieOf c == r) then 74 else railCode r
  let s := railOrder.foldl (fun s r => railBack s r (code r)) s
  let s := { s with power := { s.power with pkg := .running, clocks := true, entering := none }, irt := { s.irt with held := false },
                    cores := s.cores.map (fun (p : Nat × Core) => (p.1, p.2.onWakeClock)) }
  let s := ws.foldl (fun s c => s.onCore c (fun k => { k with cur := 10, goal := 10 })) s
  edgesAfterSleep (resumeRouter ([0, 1, 2, 3].foldl trimDie (ws.foldl resume s)))

/-- A wake event (R422, R426): it ends a package state, or abandons a package entry. -/
def wakeEvent (s : State) (src : WakeSrc) : State :=
  if ¬ wakeEnabled s src ∨ s.power.errFatal then s
  else if s.power.pkg ≠ .running then wakePackage s src
  else
    match s.power.entering with
    | some c => abortEntry (noteWake s src) c (0x11 + wakeBit src)
    | none => s

/-- PACKAGE_WAKE. -/
def execPackageWake (src : WakeSrc) (s : State) : Result :=
  done (if s.power.pkg ≠ .running ∧ s.power.pwrgood then wakeEvent s src else s)

/-- AON_TIMER_WAKE: the global timestamp has reached AONCMP (Table 5 of 14). -/
def execAonTimerWake (s : State) : Result :=
  doneOr s (if (s.reg .lvAoncmp 0 0 0).toNat ≤ s.now ∧ s.power.pwrgood then wakeEvent s .timer else s)

/-! ## Memory returns (R274, R298, R360, R422) -/

/-- Requests to DRAM and CXL proceed once every controller that ran runs again. -/
def memReady (s : State) : State :=
  if s.mcs.any (fun p => !p.2.saved.isEmpty) then s
  else resumeRouter { s with power := { s.power with memWait := false } }

/-- A controller runs again with its saved settings, and its error windows start (R299). -/
def unparkMc (s : State) (n : Nat) : State :=
  match (s.mc n).saved with
  | [] => s
  | v :: _ =>
    let s := s.setMc n { s.mc n with saved := [], filling := false, ueCount := 0, devCount := [], rows := [] }
    (s.setReg .mcCtl n 0 0 v).setReg .mcStat n 0 0 (setBit (s.reg .mcStat n 0 0) 0 false)

/-- Every non-empty entry of the key table, derived again (R360). -/
def reloadKeys (w : Wicket) : Tab MemKey :=
  (w.gens.filter (fun p => p.2 != 0)).map (fun (p : Nat × Nat) => (p.1, memoryKey w.bootKey p.1 p.2))

/-- SELF_REFRESH_EXIT: Wicket reloads the key table from its generations, and controllers run again; one with dropped ranks fills
them first. -/
def execSelfRefreshExit (s : State) : Result :=
  doneOr s (
    if ¬ s.power.memWait ∨ s.power.pkg ≠ .running ∨ ¬ s.power.pll then s
    else
      let s := { s with keys := reloadKeys s.wicket }
      memReady ((List.range 16).foldl (fun s n => if (s.mc n).filling then s else unparkMc s n) s))

/-- RANK_FILL_DONE: the dropped ranks of a controller are filled, lines whose write failed being left in stored-poison form, and it runs
(R298, R308). -/
def execRankFillDone (n : Fin 16) (fails : List (BitVec 46)) (s : State) : Result :=
  doneOr s (
    if s.power.memWait ∧ (s.mc n).filling ∧ s.rootClock ∧ ¬ s.keys.isEmpty then
      memReady (unparkMc (fillFailed s (fun l => decide (chanOf s l = n.val) && !(s.map.map (fun m => rankKept s m l)).getD true) fails) n)
    else s)

end Sys2Proof.Machine
end

