-- ==== Sys2Proof/Machine/Louvre.lean ====
section
/-! DEFINITION. What Louvre does (chapter 14): grants, owner caps, energy, raises, the start of cores, tile reset; and the half-time of
the secure watchdog (R342). -/

namespace Sys2Proof.Machine

/-- Louvre firmware runs (R403). -/
def louvreOn (s : State) : Bool := s.wicket.running && s.power.pwrgood && !s.power.errFatal

/-! ## Grants (R409, R413, R414) -/

/-- CR.GRANT of a core as Louvre firmware leaves it. -/
def grantWord (old : W64) (level wide : BitVec 4) : W64 :=
  let clamp : Bool := 12 < level.toNat || 12 < wide.toNat
  let v := setFld (setFld old 0 4 (min 12 level.toNat)) 4 4 (min 12 wide.toNat)
  setFld (setBit (setBit v 13 clamp) 14 false) 16 16 (fld old 16 16 + 1)

/-- GRANT_WRITE. -/
def execGrantWrite (c : CoreId) (level wide : BitVec 4) (s : State) : Result :=
  done (
    if louvreOn s then retarget (s.onCore c (fun k => k.crPut 9 (grantWord (k.crBase 9) level wide))) c
    else s)

/-- GRANT_STALE: 16 ms without a grant write (R414). -/
def execGrantStale (c : CoreId) (s : State) : Result :=
  done (
    let k := s.core c
    let v := k.crBase 9
    if ¬ k.started ∨ bitAt v 14 ∨ s.power.errFatal then s
    else
      let s := s.setCore c (k.crPut 9 (setBit (setFld (setFld v 0 4 6) 4 4 6) 14 true))
      retarget (s.logErr .notice 8 0 0x43 0 4095 (BitVec.ofNat 64 c.val)) c)

/-! ## Owner caps (R415) -/

/-- CLAMP of every core that runs an owner whose level was clamped (R413). -/
def markClamp (s : State) (o : Nat) : State :=
  { s with cores := s.cores.map (fun (p : Nat × Core) =>
      if p.2.owner.toNat = o then (p.1, p.2.crPut 9 (setBit (p.2.crBase 9) 13 true)) else p) }

/-- OWNER_CAP_WINDOW: `level` is firmware's choice, `power` the owner's average over the window in watts. A cap of 0 places no
limit. -/
def execOwnerCapWindow (o : Owner) (level : BitVec 4) (power : Nat) (s : State) : Result :=
  done (
    if ¬ louvreOn s ∨ o = 4095 then s
    else
      let n := o.toNat
      let v := s.reg .lvOcap 0 n 0
      let cap := fld v 0 12
      let l := if cap = 0 then 0 else min 12 level.toNat
      let s := s.setReg .lvOcap 0 n 0 (setBit (setFld v 12 4 l) 16 (cap ≠ 0 ∧ cap < power))
      retargetAll (if cap ≠ 0 ∧ 12 < level.toNat then markClamp s n else s))

/-! ## Energy (R416) -/

/-- Parts of a microjoule in which shares are carried. -/
def energyUnit : Nat := 524288

/-- Energy in parts of a microjoule added to a counter, with its remainder kept under `key`. -/
def addEnergy (s : State) (i : RegId) (k key parts : Nat) : State :=
  let t := lookD 0 s.power.energyRem key + parts
  let s := { s with power := { s.power with energyRem := put s.power.energyRem key (t % energyUnit) } }
  s.setReg i 0 k 0 (s.reg i 0 k 0 + BitVec.ofNat 64 (t / energyUnit))

/-- A total over the cores of a die, by owner. -/
def dieTotals (s : State) (d : Nat) (f : Core → Tab Nat) : Tab Nat :=
  (dieCores s d).foldl (fun t c => (f (s.core c)).foldl (fun t p => put t p.1 (lookD 0 t p.1 + p.2)) t) []

/-- Parts divided among owners in proportion to a table; owner 1, which every core starts with, takes them where it is empty. -/
def shareOut (s : State) (parts : Nat) (t : Tab Nat) : State :=
  let total := (t.map (·.2)).sum
  if total = 0 then addEnergy s .lvEnergy 1 1 parts
  else t.foldl (fun s p => if p.1 < 4095 then addEnergy s .lvEnergy p.1 p.1 (parts * p.2 / total) else s) s

/-- The energy of a rail in the millisecond, in units of 1/8 µJ: its last READ_VOUT in mV by its last READ_IOUT in units of 1/8 A
(DESIGN CHOICE, log 51). -/
def railEnergy (s : State) (r : Nat) : Nat := (s.vr r).vout.toNat * (s.vr r).iout.toNat

/-- The energy of a core rail: leakage by time, the rest by activity. -/
def dieEnergy (s : State) (d : Nat) : State :=
  let e := railEnergy s d
  let all := e * 65536
  let leak := e * min 65536 (Config.leakageShare d)
  let time := dieTotals s d (·.ownTime)
  let act := dieTotals s d (·.activity)
  let s := shareOut s leak time
  shareOut s (all - leak) (if (act.map (·.2)).sum = 0 then time else act)

/-- ENERGY_TICK: the energy of a millisecond. The core rails are shared among owners, the other link rails are the mesh, LLC, vault,
memory controllers and I/O; `other` is that of the rails no regulator of the link supplies, in units of 1/8 µJ. -/
def execEnergyTick (other : Nat) (s : State) : Result :=
  done (
    if ¬ louvreOn s then s
    else
      let rails (l : List Nat) : Nat := (l.map (railEnergy s)).sum
      let uncore := rails [4, 5, 6, 7, 8]
      let all := rails [0, 1, 2, 3] + uncore + other
      let s := [0, 1, 2, 3].foldl dieEnergy s
      let s := addEnergy s .lvUncenergy 0 4096 (uncore * 65536)
      let s := addEnergy s .lvPkgenergy 0 4097 (all * 65536)
      { s with cores := s.cores.map (fun (p : Nat × Core) => (p.1, { p.2 with activity := [], ownTime := [] })) })

/-! ## Raises (R33, R408) -/

/-- RAISE_VOUT_OK: a READ_STATUS of the raise, with its tries, finds VOUT_OK, or a shutdown bit (R25); one that is not acknowledged
finds nothing, and the raise goes on. -/
def execRaiseVoutOk (die : Fin 4) (fails : List LinkFail) (s : State) : Result :=
  done (
    if ¬ (s.raise die).busy ∨ ¬ linkOn s then s
    else
      match sendFrame s die 8 fails with
      | (s, false) => s
      | (s, true) =>
        if (s.vr die).shutdown then faultRead s die
        else raiseDone (s.setVr die ((s.vr die).settled s.now (s.vr die).code.toNat)) die)

/-- The SET_VID frame of a raise with its tries: one that is not acknowledged left the regulator where it was (R29). -/
def raiseFrame (s : State) (d : Nat) (fails : List LinkFail) : State :=
  match sendFrame s d 1 fails with
  | (s, true) => s
  | (s, false) => s.setVr d ((s.vr d).settled s.now (s.raise d).old)

/-- RAISE_FAIL: 500 µs without VOUT_OK. The first failure of a run is logged. -/
def execRaiseFail (die : Fin 4) (fails : List LinkFail) (s : State) : Result :=
  done (
    let r := s.raise die
    if ¬ r.busy ∨ ¬ linkOn s then s
    else
      let s := raiseFrame s die fails
      let s := (dieCores s die).foldl (fun s c =>
        let k := s.core c
        if k.raising then s.setCore c { k with raising := false, raiseFail := true } else s) s
      let s := s.setRaise die { r with busy := false, retry := true, fails := r.fails + 1 }
      if r.fails = 0 then s.logErr .notice 8 0 0x48 0 4095 (BitVec.ofNat 64 (die.val + r.code * 2 ^ 8)) else s)

/-- RAISE_RETRY: 1 ms after a failure, while a target stays faster. -/
def execRaiseRetry (die : Fin 4) (s : State) : Result :=
  done (
    let r := s.raise die
    if ¬ r.retry ∨ ¬ linkOn s ∨ ¬ s.power.clocks then s
    else if wantsRaise s die then
      let s := startRaise ((dieCores s die).foldl (fun s c =>
        let k := s.core c
        if follows k ∧ k.goal < k.cur then s.setCore c { k with raising := true } else s) s) die
      s.setRaise die { s.raise die with retry := false }
    else s.setRaise die { r with retry := false })

/-! ## Start and reset of cores (R475, R476, R480) -/

/-- CORE_START: a core whose START bit is set runs from the reset state. -/
def execCoreStart (c : CoreId) (s : State) : Result := done (startCore s c)

/-- The active sources that a core took are no longer active (R454). This is no EOI: no status bit raises its source again (R451). -/
def dropActive (s : State) (c : Nat) : State :=
  ((s.irt.taker.filter (fun p => p.2.1 / 4 == c)).map (·.1)).foldl (fun s n =>
    let s := s.setReg .irtSrc 0 n 0 (setBit (s.reg .irtSrc 0 n 0) 2 false)
    { s with irt := { s.irt with taker := del s.irt.taker n } }) s

/-- Steps 2 to 5 of R480 for one core. A pair of a split store drains whole, as all retired stores do. CR.CLKSEL.ACTIVE of core 0 of
tile 0 reads 0 again, and the mesh, which follows it, runs from the wake clock (R40; DEDUCED, log 108). -/
def tileResetCore (s : State) (c : Nat) : State :=
  let s := emptyL2 (drainAll s c) c
  let s := setResident (dropActive s c) c none
  let shown := s.irt.shown.filter (fun p => p.1 / 3 != c)
  let k := s.core c
  let s := { s with irt := { s.irt with shown := shown } }
  let s := s.setCore c { Core.reset with activity := k.activity, ownTime := k.ownTime, cur := k.cur, goal := k.cur }
  let s := if c = 0 then { s with power := { s.power with meshPll := false, meshSlow := false } } else s
  s.setReg .lvCorestart 0 (c / 64) 0 (setBit (s.reg .lvCorestart 0 (c / 64) 0) (c % 64) false)

/-- TILERST_DONE: GO reads 0, and RSTINFO counts the reset. -/
def execTilerstDone (s : State) : Result :=
  doneOr s (
    match tileInReset s with
    | none => s
    | some t =>
      if ¬ s.power.clocks then s
      else
        let s := tileResetCore (tileResetCore s (2 * t)) (2 * t + 1)
        let s := s.setRegF .lvTilerst 0 0 0 8 1 0
        lowerRail (s.bump .wkRstinfo 0 0 0 24 8 1) (dieOf (2 * t)))

/-! ## The secure watchdog (R342) -/

/-- It counts: RUN, and no core is halted under effective SINV. -/
def swdCounts (s : State) : Bool := bitAt (s.reg .ownSwdctl 0 0 0) 0 && !haltedIn s true && s.power.vaon && s.power.pwrgood

/-- Half-time: HALF, source 0, and a package wake. -/
def swdHalfway (s : State) : State :=
  let v := s.reg .ownSwdctl 0 0 0
  let s := s.setReg .ownSwdctl 0 0 0 (setBit v 1 true)
  wakeEvent (raiseEvent s 0) .swd

/-- SWD_HALF: the time to half of PERIOD passes. -/
def execSwdHalf (s : State) : Result :=
  doneOr s (
    let v := s.reg .ownSwdctl 0 0 0
    if swdCounts s ∧ fld v 16 16 / 2 < fld v 32 16 then
      swdHalfway (s.setReg .ownSwdctl 0 0 0 (setFld v 32 16 (fld v 16 16 / 2)))
    else s)

/-! ## Thermal holds (R46) -/

/-- THERMAL_HOLD: a tile's sensor holds its die, an uncore sensor every die. -/
def execThermalHold (x : Sensor) (s : State) : Result :=
  done (
    if ¬ s.power.pwrgood then s
    else
      match x with
      | .tile t => retargetAll { s with power := { s.power with dieHold := setBit s.power.dieHold (dieOf (2 * t)) true } }
      | .uncore _ => retargetAll { s with power := { s.power with uncHold := true } })

/-- THERMAL_RELEASE: every sensor concerned reads below 103 °C. -/
def execThermalRelease (x : HoldScope) (s : State) : Result :=
  done (
    match x with
    | .die d => retargetAll { s with power := { s.power with dieHold := setBit s.power.dieHold d false } }
    | .uncore => retargetAll { s with power := { s.power with uncHold := false } })

end Sys2Proof.Machine
end

