-- ==== Sys2Proof/Machine/Resets.lean ====
section
/-! DEFINITION. Supplies, clocks and resets (chapters 01 and 18): what cold and warm resets keep (R483), PWRGOOD, VAON, RESET_N, the root
PLL, clock switches, thermal trip, expiry of the secure watchdog, failing supplies. -/

namespace Sys2Proof.Machine

/-! ## What resets keep (R483 Table 3) -/

/-- Registers of the always-on domain. -/
def keptCold : List RegId := [.mcHealth, .wkBootstat, .wkRstinfo]

/-- Registers that a warm reset keeps too, whole: ring pointers, remaps, device marks; and the place and lock of the ownership table,
which stay until cold reset (R325) and which the next start-up writes again. -/
def keptWarm : List RegId :=
  keptCold ++ [.mcElogptr, .mcElogovf, .meshElogptr, .meshElogovf, .mcRemap, .vltRemap, .mcBaddev, .ownTbase, .ownTpages,
    .ownTlock]

/-- A register after a cold or a warm reset, where it is not at its Reset value. The last lap of a scrubber is known since the cold reset
(R318; DEDUCED, log 122). -/
def keptValue (warm : Bool) (p : Nat × W64) : Option (Nat × W64) :=
  match regAt p.1 with
  | none => none
  | some a =>
    let i := a.d.id
    if keptCold.contains i ∨ (warm ∧ keptWarm.contains i) then some p
    else if ¬ warm then none
    else
      match i with
      | .meshLinkstat => some (p.1, setFld 0 16 12 (fld p.2 16 12))
      | .oecLanestat => some (p.1, setFld 0 0 8 (fld p.2 0 8))
      | .mcScrubstat | .vltScrubstat => some (p.1, setBit p.2 32 false)
      | .meshErrsig => some (p.1, setFld a.d.resetValue 2 1 (fld p.2 2 1))
      | _ => none

/-- Power, pins and the always-on domain after a cold or a warm reset. -/
def Power.afterReset (p : Power) (warm : Bool) (cause : Nat) : Power :=
  { Power.reset with
    vaon := p.vaon, pwrgood := p.pwrgood, octal := p.octal, testEn := p.testEn, resetN := p.resetN,
    pll := p.pll && warm && decide (p.pkg = .running), errFatal := p.errFatal && warm, thermtrip := p.thermtrip && warm,
    dieHold := if warm then p.dieHold else 0, uncHold := p.uncHold && warm, gpio := p.gpio, time := p.time,
    fatalCode := p.fatalCode, causes := p.causes ++ [cause], vrs := p.vrs, supplyBad := p.supplyBad }

/-- A reset of everything outside the always-on domain: cold, or warm with what Table 3 preserves. Wicket keeps its SRAM. -/
def partReset (s : State) (warm : Bool) (cause : Nat) : State :=
  { State.reset with
    pending := s.pending, free := s.free, regs := s.regs.filterMap (keptValue warm),
    rings := if warm then s.rings else [],
    power := s.power.afterReset warm cause,
    wicket := { s.wicket with running := false, served := 2, nonce := none, answer := [], chainDue := false } }

/-- A warm reset (R479): a sleeping package's rails first, then the core rails at the P10 voltage. -/
def warmReset (s : State) (cause : Nat) : State :=
  let s := if s.power.pkg = .running then s else railOrder.foldl (fun s r => railBack s r (railCode r)) s
  let s := [0, 1, 2, 3].foldl (fun s r => if (s.vr r).enabled then hwSetVid s r 90 else s) s
  partReset s true cause

/-- A warm reset after which start-up begins by itself, 10 µs later (R479). -/
def warmRestart (s : State) (cause : Nat) : State :=
  let s := warmReset s cause
  { s with power := { s.power with restart := true } }

/-- A warm reset can happen: supplied, not stopped by a fatal error or a thermal trip (R478). -/
def warmAllowed (s : State) : Bool := s.power.vaon && s.power.pwrgood && !s.power.errFatal && !s.power.thermtrip

/-- The mesh has its supply, so that a record can be logged while no start-up has ended (R319). -/
def meshPowered (s : State) : Bool := (s.vr 4).enabled

/-! ## VAON and PWRGOOD -/

/-- VAON_POWER_ON: the always-on domain leaves its power-on reset, and CR.TIME counts from 0 (R461). -/
def execVaonPowerOn (s : State) : Result :=
  done (
    if s.power.vaon then s
    else { s with power := { s.power with vaon := true, time := 0, causes := [1] } })

/-- VAON_LOSS: nothing outside fuses, flash and the board survives (R320, R483). -/
def execVaonLoss (s : State) : Result :=
  done
    { State.reset with
      pending := s.pending, free := s.free,
      power := { Power.reset with pwrgood := s.power.pwrgood, resetN := s.power.resetN, gpio := s.power.gpio, vrs := s.power.vrs,
                                  supplyBad := s.power.supplyBad },
      wicket := { Wicket.reset with fuses := s.wicket.fuses, flash := s.wicket.flash, maps := s.wicket.maps } }

/-- PWRGOOD_RISE: the straps are sampled (R14), and start-up begins (R475). -/
def execPwrgoodRise (flashOctal testEn : Bool) (s : State) : Result :=
  done (
    if ¬ s.power.vaon ∨ s.power.pwrgood then s
    else
      let s := { s with power := { s.power with pwrgood := true, octal := flashOctal, testEn := testEn, startDue := !testEn } }
      if testEn then s.fatal 0x45 (meshPowered s) 9 0 0 0 else s)

/-- PWRGOOD_FALL: a cold reset (R24, R474). -/
def execPwrgoodFall (s : State) : Result :=
  done (
    if ¬ s.power.pwrgood then s
    else
      let s := partReset s false 2
      { s with power := { s.power with pwrgood := false } })

/-! ## Warm and secure-watchdog resets -/

/-- RESET_N_ASSERT (R478, R479). -/
def execResetNAssert (s : State) : Result :=
  done (
    if warmAllowed s ∧ ¬ s.power.resetN then
      let s := warmReset s 3
      { s with power := { s.power with resetN := true } }
    else s)

/-- RESET_N_RELEASE: start-up begins (R479). -/
def execResetNRelease (s : State) : Result :=
  done (
    if s.power.resetN then { s with power := { s.power with resetN := false, startDue := warmAllowed s } } else s)

/-- WARM_RESET_RESTART: start-up begins 10 µs after a reset that no pin ended (R479). -/
def execWarmResetRestart (s : State) : Result :=
  done (
    if s.power.restart ∧ warmAllowed s ∧ ¬ s.power.resetN then
      { s with power := { s.power with restart := false, startDue := true } }
    else s)

/-- The secure watchdog reaches zero (R342, R473): nothing, in a part that a fatal error or the thermal trip has stopped (DESIGN CHOICE,
log 121). -/
def swdExpire (s : State) : State := if warmAllowed s then warmRestart s 4 else s

/-- SWD_EXPIRY. -/
def execSwdExpiry (s : State) : Result := done (if swdCounts s then swdExpire s else s)

/-- A millisecond of the secure watchdog (DESIGN CHOICE, log 27). -/
def swdMs (s : State) : State :=
  if ¬ swdCounts s then s
  else
    let v := s.reg .ownSwdctl 0 0 0
    let r := fld v 32 16
    let half := fld v 16 16 / 2
    if r ≤ 1 then swdExpire s
    else
      let s := s.setReg .ownSwdctl 0 0 0 (setFld v 32 16 (r - 1))
      if half < r ∧ r - 1 ≤ half then swdHalfway s else s

/-! ## Clocks (R36 to R41) -/

/-- PLL_LOCK: the root PLL locks, and switches waiting for it begin (R40). -/
def execPllLock (s : State) : Result :=
  done (
    if s.power.pll ∨ ¬ s.power.pwrgood ∨ ¬ s.power.vaon ∨ s.power.pkg ≠ .running ∨ s.power.errFatal then s
    else
      { s with power := { s.power with pll := true },
               cores := s.cores.map (fun (p : Nat × Core) =>
                 let v := p.2.crBase 0x211
                 if bitAt v 0 ∧ ¬ bitAt v 1 ∧ p.2.started then (p.1, { p.2 with switching := true }) else p) })

/-- PLL_LOCK_LOSS: fatal (R41). -/
def execPllLockLoss (s : State) : Result :=
  done (
    if ¬ s.power.pll ∨ s.power.errFatal then s
    else
      let s := s.fatal 0x42 (meshPowered s) 8 0 0 0
      { s with power := { s.power with pll := false } })

/-- CLOCK_SWITCH_DONE: ACTIVE takes SRC; the mesh follows core 0 of tile 0 (R40, R262). -/
def execClockSwitchDone (c : CoreId) (s : State) : Result :=
  done (
    let k := s.core c
    if ¬ k.switching ∨ ¬ s.power.clocks then s
    else
      let on := bitAt (k.crBase 0x211) 0
      let s := s.setCore c { k.crPut 0x211 (setBit (k.crBase 0x211) 1 on) with switching := false }
      if c.val = 0 then
        { s with power := { s.power with meshPll := on, meshSlow := on && bitAt (s.reg .meshClkcfg 132 0 0) 0 } }
      else s)

/-! ## Thermal trip and failing supplies -/

/-- THERMTRIP: the comparator of R47 acts. -/
def execThermtrip (_x : Sensor) (s : State) : Result :=
  done (
    if ¬ s.power.vaon ∨ ¬ s.power.pwrgood then s
    else
      let s := s.fatal 0xFE false 0 0 0 0
      { s with power := { s.power with thermtrip := true,
                                       vrs := (List.range 9).foldl (fun t r => put t r ((s.vr r).switch s.now r false true))
                                         s.power.vrs } })

/-- What a failing supply may do to core number `c`: any general, vector and mask register, the program counter, and any line in its L2
(DESIGN CHOICE, log 14). -/
def Core.disturb (k : Core) (free c : Nat) : Core :=
  let noise (i : Nat) : W512 := Config.supplyWide free (2 ^ 20 * c + i)
  let k := (List.range 32).foldl (fun k i =>
    (k.wg (BitVec.ofNat 5 i) (k.gr (BitVec.ofNat 5 i) ^^^ (noise i).setWidth 64)).wv i (k.vr i ^^^ noise (32 + i))) k
  let k := (List.range 8).foldl (fun k i => k.wm (BitVec.ofNat 3 i) (k.mr (BitVec.ofNat 3 i) ^^^ noise (64 + i))) k
  { k with pc := k.pc ^^^ ((noise 72).setWidth 64 &&& ~~~3#64),
           l2 := k.l2.mapIdx (fun i (p : Nat × L2Line) => (p.1, { p.2 with c := { p.2.c with data := p.2.c.data ^^^ noise (73 + i) } })) }

/-- What it may do to memory: any byte of DRAM, CXL memory and the vault, and any line of the LLC (DESIGN CHOICE, log 14). -/
def disturbMem (s : State) (free : Nat) : State :=
  { s with
    mem := (Config.supplyBytes free).foldl (fun m p =>
      if (regionOf p.1.toNat).memory then writeByte m p.1.toNat (readByte m p.1.toNat ^^^ p.2) else m) s.mem,
    llc := s.llc.mapIdx (fun i (p : Nat × LlcWay) =>
      (p.1, { p.2 with c := { p.2.c with data := p.2.c.data ^^^ Config.supplyWide free (2 ^ 30 + i) } })) }

/-- A record of an error that did not occur, of any class, place and owner (R320). -/
def spurious (s : State) (w a d : W64) : State :=
  let k : ErrClass := match fld w 1 3 with
    | 0 => .corrected
    | 1 => .notice
    | 2 => .deferred
    | 3 => .consumed
    | _ => .fatal
  let s := s.logErr k (fld w 4 4) (fld w 8 12) (fld w 20 8) (fld a 0 52) (fld a 52 12) d
  if k = .fatal then s.fatal (fld w 20 8) false 0 0 0 0 else s

/-- SUPPLY_OUT_OF_RANGE: results may be corrupted, and a record may be logged for an error that did not occur (R24, R320). -/
def execSupplyOutOfRange (rail : Byte) (s : State) : Result :=
  done (
    if ¬ s.power.pwrgood then s
    else
      let n := s.free
      let bad := s.power.supplyBad
      let s := { s with
        free := n + 3,
        power := { s.power with supplyBad := if bad.contains rail.toNat then bad else bad ++ [rail.toNat] },
        cores := if s.power.clocks then s.cores.map (fun (p : Nat × Core) => (p.1, p.2.disturb n p.1)) else s.cores }
      let s := disturbMem s n
      let w := Config.supplyNoise n
      if bitAt w 0 ∧ s.power.clocks then spurious s w (Config.supplyNoise (n + 1)) (Config.supplyNoise (n + 2)) else s)

end Sys2Proof.Machine
end

