-- ==== Sys2Proof/Machine/WicketOps.lean ====
section
/-! DEFINITION. What Wicket works with (chapter 12): key derivation, the identity key, random bits, the Selvedge record with its events,
digest and signature, the chain area, the memory-health record, and quotes. -/

namespace Sys2Proof.Machine

/-- A change of Wicket's state. -/
def State.onWicket (s : State) (f : Wicket → Wicket) : State := { s with wicket := f s.wicket }

/-! ## Wicket's core (R346) -/

/-- Wicket's core has worked: its registers and the rest of its SRAM hold what its code left there (DESIGN CHOICE, log 105). -/
def Wicket.works (w : Wicket) (use : Nat) : Wicket :=
  { w with
    pc := Config.wicketPc Config.wicketRom use,
    g := (List.range 31).foldl (fun g i => store 0 g (i + 1) (Config.wicketReg Config.wicketRom use (i + 1))) w.g,
    sram := (Config.wicketSram Config.wicketRom use).foldl (fun m p => store 0 m p.1.toNat p.2) w.sram }

/-- The same in the part. -/
def State.wicketWorks (s : State) : State := s.useFree.onWicket (fun w => w.works s.free)

/-! ## Keys and random bits (R348, R349) -/

/-- The HMAC keys of the memory-health record and of the chain area (R349 Table 2). -/
def healthKey (f : Fuses) : List Byte := kdf (leBytes 32 f.secret.toNat) "Iaton health" [] 32
def chainKey (f : Fuses) : List Byte := kdf (leBytes 32 f.secret.toNat) "Iaton chain" [] 32

/-- The 48 bytes the identity key is made from. -/
def identitySeed (f : Fuses) : List Byte := kdf (leBytes 32 f.secret.toNat) "Iaton identity" [] 48

def identityKey (f : Fuses) : BitVec 256 := Config.slhPublic (identitySeed f)

/-- SHA-256 of the identity public key (R364, DEVICE). -/
def deviceId (f : Fuses) : BitVec 256 := digest (leBytes 32 (identityKey f).toNat)

/-- A request to the DRBG. -/
def drawBits (s : State) : State × BitVec 256 :=
  ({ s.useFree with wicket := { s.wicket with draws := s.wicket.draws + 1 } }, Config.drbg s.free)

/-- A signature of the identity key, 17,088 bytes, with 16 random bytes of the DRBG as FIPS 205 signs. -/
def signAs (s : State) (context : String) (message : List Byte) : State × List Byte :=
  let (s, r) := drawBits s
  (s, (Config.slhSign (identitySeed s.wicket.fuses) (r.setWidth 128).toNat (ascii context) message ++ copies 17088 0).take 17088)

/-- The public key of an image slot, if one may be used: a vendor slot not revoked, or the owner slot where it is not empty. -/
def slotKey (f : Fuses) (slot : Nat) : Option (BitVec 256) :=
  if slot < 4 then (if bitAt f.vrevoke slot then none else some (lookD 0 f.vkeys slot))
  else if slot = 4 ∧ f.okey ≠ 0 then some f.okey
  else none

/-- FLOORt: the number of bits blown (R347). -/
def floorOf (f : Fuses) (t : Nat) : Nat := popc (lookD 0 f.floors t)

/-! ## Bytes -/

/-- `n` bytes of a list from an offset, zero past its end. -/
def bytesAt (l : List Byte) (off n : Nat) : List Byte := (List.range n).map (fun i => nthD 0 l (off + i))
def numAt (l : List Byte) (off n : Nat) : Nat := leNat (bytesAt l off n)
def byte (n : Nat) : Byte := BitVec.ofNat 8 n

/-! ## The record (R363 to R367) -/

/-- The bytes of an event (R365). -/
def eventBytes (typ mr flags : Nat) (dig : BitVec 256) (data : List Byte) : List Byte :=
  leBytes 2 typ ++ [byte mr, byte flags] ++ leBytes 4 data.length ++ leBytes 32 dig.toNat ++ data
    ++ copies ((8 - data.length % 8) % 8) 0

/-- MR[i] extended by a digest; 0xFF names none. -/
def BootRecord.extend (r : BootRecord) (i : Nat) (dig : BitVec 256) : BootRecord :=
  if i = 0xFF then r
  else { r with mrs := put r.mrs i (digest (leBytes 32 (lookD 0 r.mrs i).toNat ++ leBytes 32 dig.toNat)) }

/-- LENGTH. -/
def BootRecord.length (r : BootRecord) : Nat := 640 + r.events.length

/-- An event of the record, with its extend. -/
def BootRecord.log (r : BootRecord) (typ mr flags : Nat) (dig : BitVec 256) (data : List Byte) : BootRecord :=
  { r.extend mr dig with events := r.events ++ eventBytes typ mr flags dig data, count := r.count + 1 }

/-- An event of the runtime log. -/
def BootRecord.logLate (r : BootRecord) (typ mr flags : Nat) (dig : BitVec 256) (data : List Byte) : BootRecord :=
  { r.extend mr dig with rt := r.rt ++ eventBytes typ mr flags dig data, rtCount := r.rtCount + 1 }

/-- Whether an event of `n` bytes fits: in the record before SEAL, else in the runtime log. -/
def BootRecord.fits (r : BootRecord) (n : Nat) : Bool :=
  if r.isSealed then decide (r.rt.length + n ≤ 32768) else decide (r.length + n ≤ 65536)

def BootRecord.mrBytes (r : BootRecord) (n : Nat) : List Byte :=
  (List.range n).flatMap (fun i => leBytes 32 (lookD 0 r.mrs i).toNat)

/-- The header (Table 10). -/
def BootRecord.header (r : BootRecord) : List Byte :=
  leBytes 4 0x47564C53 ++ leBytes 2 1
    ++ leBytes 2 (b2n r.isSealed + 2 * b2n r.prevSealed + 4 * r.chainSrc + 16 * b2n r.healthBad + 32 * b2n r.certOk)
    ++ leBytes 4 r.length ++ leBytes 4 r.count ++ leBytes 16 r.bootId.toNat ++ leBytes 8 r.bootSeq ++ leBytes 8 r.prevSeq
    ++ leBytes 32 r.prevDigest.toNat ++ leBytes 32 r.device.toNat
    ++ [byte r.cause, r.fatal, r.debug, byte r.chanset, r.imgslots, r.startfail, 0, 0]
    ++ leBytes 8 (if r.isSealed then r.sealTime.toNat else 0) ++ r.mrBytes 16

/-- The record without its signature. -/
def BootRecord.bytes (r : BootRecord) : List Byte := r.header ++ r.events

/-- The record as it is read: a sealed one with its signature (R367). -/
def BootRecord.whole (r : BootRecord) : List Byte := r.bytes ++ (if r.isSealed then r.sig else [])

/-- A record's digest (R366). -/
def BootRecord.digest (r : BootRecord) : BitVec 256 := Sys2Proof.Machine.digest r.whole

/-- A record with nothing in it. -/
def BootRecord.empty : BootRecord where
  isSealed := false
  prevSealed := false
  chainSrc := 2
  healthBad := false
  certOk := false
  bootId := 0
  bootSeq := 0
  prevSeq := 0
  prevDigest := 0
  device := 0
  cause := 0
  fatal := 0
  debug := 0
  chanset := 0
  imgslots := 0
  startfail := 0
  sealTime := 0
  mrs := []
  count := 0
  events := []
  rtCount := 0
  rt := []
  sig := []

/-! ## The boot flash (R350, R361, R366) -/

/-- Bytes of the flash from an offset. -/
def flashBytes (f : List Host.Cell) (off n : Nat) : List Byte := (List.range n).map (fun i => readByte f (off + i))

/-- Bytes written from an address on. -/
def writeBytes : List Host.Cell → Nat → List Byte → List Host.Cell
  | m, _, [] => m
  | m, a, b :: t => writeBytes (writeByte m a b) (a + 1) t

/-- An HMAC-SHA-256 of the bytes follows them. -/
def macOk (key body mac : List Byte) : Bool := hmac key body == mac

/-- Of two copies, the valid one with the higher GEN, and whether it is copy 1. -/
def newest {α : Type} (gen : α → Nat) (a b : Option α) : Option (α × Bool) :=
  match a, b with
  | some x, some y => if gen x < gen y then some (y, true) else some (x, false)
  | some x, none => some (x, false)
  | none, some y => some (y, true)
  | none, none => none

/-- Offsets of the copies of the chain area and of the memory-health record (Table 3). -/
def chainAt (one : Bool) : Nat := if one then 0x3000 else 0x2000
def healthAt (one : Bool) : Nat := if one then 0x40000 else 0x20000

/-- The bytes of a chain area copy before their HMAC: GEN, STARTSEQ, SEALSEQ and SEALDIGEST (DESIGN CHOICE, log 83). -/
def chainBytes (c : ChainCopy) : List Byte :=
  leBytes 8 c.gen ++ leBytes 8 c.startSeq ++ leBytes 8 c.sealSeq ++ leBytes 32 c.sealDigest.toNat

/-- A copy of the chain area, where its HMAC is right. -/
def chainCopy (w : Wicket) (one : Bool) : Option ChainCopy :=
  let l := flashBytes w.flash (chainAt one) 88
  if macOk (chainKey w.fuses) (l.take 56) (l.drop 56) then
    some ⟨numAt l 0 8, numAt l 8 8, numAt l 16 8, BitVec.ofNat 256 (numAt l 24 32)⟩ else none

def chainNow (w : Wicket) : Option (ChainCopy × Bool) := newest (·.gen) (chainCopy w false) (chainCopy w true)

/-- The chain area updated: the other copy, with GEN + 1. -/
def writeChain (w : Wicket) (startSeq sealSeq : Nat) (sealDigest : BitVec 256) : Wicket :=
  let (gen, one) := match chainNow w with
    | some (c, one) => (c.gen + 1, !one)
    | none => (1, false)
  let l := chainBytes ⟨gen, startSeq, sealSeq, sealDigest⟩
  { w with flash := writeBytes w.flash (chainAt one) (l ++ hmac (chainKey w.fuses) l) }

/-- An entry's 16 bytes (Table 8). -/
def entryBytes (e : HealthEntry) : List Byte := [e.typ, e.ch, e.a, e.b] ++ leBytes 4 e.serial.toNat ++ leBytes 8 e.value.toNat

/-- The entry that 16 bytes spell. -/
def entryOf (l : List Byte) : HealthEntry :=
  ⟨nthD 0 l 0, nthD 0 l 1, nthD 0 l 2, nthD 0 l 3, BitVec.ofNat 32 (numAt l 4 4), BitVec.ofNat 64 (numAt l 8 8)⟩

/-- The 32-byte header of a memory-health record. -/
def healthHeadBytes (count gen : Nat) : List Byte :=
  leBytes 4 0x48544C48 ++ leBytes 2 1 ++ [0, 0] ++ leBytes 4 count ++ leBytes 8 gen ++ copies 12 0

/-- A copy of the memory-health record, where it is valid. -/
def healthCopy (w : Wicket) (one : Bool) : Option HealthCopy :=
  let head := flashBytes w.flash (healthAt one) 32
  let n := numAt head 8 4
  if numAt head 0 4 ≠ 0x48544C48 ∨ numAt head 4 2 ≠ 1 ∨ 4096 < n then none
  else
    let l := flashBytes w.flash (healthAt one) (64 + 16 * n)
    if macOk (healthKey w.fuses) (l.take (32 + 16 * n)) (l.drop (32 + 16 * n)) then
      some ⟨numAt head 12 8, (List.range n).map (fun i => entryOf (bytesAt l (32 + 16 * i) 16))⟩ else none

def healthNow (w : Wicket) : Option (HealthCopy × Bool) := newest (·.gen) (healthCopy w false) (healthCopy w true)
def healthList (w : Wicket) : List HealthEntry := ((healthNow w).map (·.1.entries)).getD []
def healthGen (w : Wicket) : Nat := ((healthNow w).map (·.1.gen)).getD 0

/-- The memory-health record updated, where its entries change: the other copy, with GEN + 1. -/
def writeHealth (w : Wicket) (l : List HealthEntry) : Wicket :=
  let put (gen : Nat) (one : Bool) : Wicket :=
    let b := healthHeadBytes l.length gen ++ l.flatMap entryBytes
    { w with flash := writeBytes w.flash (healthAt one) (b ++ hmac (healthKey w.fuses) b) }
  match healthNow w with
  | some (c, one) => if c.entries = l then w else put (c.gen + 1) (!one)
  | none => put 1 false

/-- The header and the entries of the record in use. -/
def healthHeader (w : Wicket) : List Byte := healthHeadBytes (healthList w).length (healthGen w)
def healthBytes (w : Wicket) : List Byte := (healthList w).flatMap entryBytes

/-- An entry added, where it is not present. -/
def addEntry (l : List HealthEntry) (e : HealthEntry) : List HealthEntry := if l.contains e ∨ 4096 ≤ l.length then l else l ++ [e]

/-! ## Quotes (R370) -/

/-- Bytes 0 to 879 of a quote. -/
def quoteHead (s : State) (r : BootRecord) (source : Nat) (nonce : List Byte) : List Byte :=
  leBytes 4 0x544F5551 ++ leBytes 2 1 ++ leBytes 2 source ++ bytesAt nonce 0 32 ++ leBytes 16 r.bootId.toNat ++ leBytes 8 r.bootSeq
    ++ leBytes 32 r.digest.toNat ++ leBytes 8 s.now ++ leBytes 4 r.rtCount ++ leBytes 4 0 ++ r.mrBytes 24

/-- A quote with its signature. -/
def makeQuote (s : State) (r : BootRecord) (source : Nat) (nonce : List Byte) : State × List Byte :=
  let h := quoteHead s r source nonce
  let (s, sig) := signAs s "Iaton quote" h
  (s, h ++ sig)


/-- A change of the present record. -/
def State.onRecord (s : State) (f : BootRecord → BootRecord) : State :=
  s.onWicket (fun w => { w with record := w.record.map f })

/-- The present record. -/
def theRecord (s : State) : BootRecord := s.wicket.record.getD BootRecord.empty

/-- BOOTSTAT.PHASE. -/
def setPhase (s : State) (p : Nat) : State := s.setRegF .wkBootstat 0 0 0 0 4 p

end Sys2Proof.Machine
end

