-- ==== Sys2Proof/Machine/Images.lean ====
section
/-! DEFINITION. Signed images, debug and device certificates (R345, R351 to R354, R369), and where the ownership table lies (R356). -/

namespace Sys2Proof.Machine

/-! ## The vault and the ownership table -/

def vaultBase : Nat := 0xE000000000000
def vaultEnd : Nat := 0xE00000C000000
def handoffPage : Nat := 0xE00000BFE7000
def vaultPart : Nat := 0xE00000BFE8000

/-- Bytes of a table part, rounded up to pages. -/
def partBytes (entries : Nat) : Nat := (2 * entries + 4095) / 4096 * 4096

/-- Where the three parts lie and their entries (R356), for a DRAM of `dram` bytes with its spare region at `spare`. -/
def tableParts (dram spare : Nat) (config : W64) : List (Nat × Nat) :=
  let n0 := dram / 4096
  let n1 := fld config 0 32 * 262144
  let n2 := 49152
  let b0 := spare - partBytes n0
  let b1 := b0 - partBytes n1
  [(b0, n0), (b1, n1), (if bitAt config 33 then b1 - partBytes n2 else vaultPart, n2)]

/-- A range of addresses. -/
abbrev Extent := Nat × Nat

def Extent.apart (a b : Extent) : Bool := a.2 ≤ b.1 || b.2 ≤ a.1 || a.1 == a.2 || b.1 == b.2
def Extent.inVault (a : Extent) : Bool := vaultBase ≤ a.1 && a.2 ≤ vaultEnd

/-- Check 6 of R353. -/
def placesOk (config : W64) (images : List Extent) : Bool :=
  let fixed : List Extent := (handoffPage, handoffPage + 4096) ::
    (if bitAt config 33 then [] else [(vaultPart, vaultPart + partBytes 49152)])
  let all := images ++ fixed
  images.all Extent.inVault && (List.range all.length).all (fun i => (List.range i).all (fun j =>
    Extent.apart (nthD (0, 0) all i) (nthD (0, 0) all j)))

/-! ## The directory (R351) -/

/-- A copy of the directory, 528 bytes. -/
def dirCopy (f : List Host.Cell) (k : Nat) : List Byte := flashBytes f (0x1000 * k) 528

/-- MAGIC and CRC are valid. -/
def dirValid (d : List Byte) : Bool :=
  numAt d 0 4 == 0x52494442 && numAt d 8 4 == (crc32c (bytesAt d 0 8 ++ bytesAt d 12 516)).toNat

/-- The directory Wicket uses. -/
def directory (f : List Host.Cell) : Option (List Byte) := [dirCopy f 0, dirCopy f 1].find? dirValid

/-- An entry: TYPE, copy B, OFFSET and LENGTH. -/
structure DirEntry where
  typ : Nat
  copyB : Bool
  off : Nat
  len : Nat
deriving DecidableEq, Repr

/-- The entries in use. -/
def dirEntries (d : List Byte) : List DirEntry :=
  (List.range (min 32 (numAt d 7 1))).map (fun i =>
    let e := 16 + 16 * i
    ⟨numAt d e 1, numAt d (e + 1) 1 == 1, numAt d (e + 4) 4, numAt d (e + 8) 4⟩)

/-- The entries of a type in the order they are tried: the one whose COPY equals PREFER, then the other. -/
def listed (d : List Byte) (t : Nat) : List DirEntry :=
  let prefer := numAt d 6 1 == 1
  let mine := (dirEntries d).filter (fun e => e.typ == t)
  (mine.filter (fun e => e.copyB == prefer)).take 1 ++ (mine.filter (fun e => e.copyB != prefer)).take 1

/-- The bytes of the first entry of a type: a certificate. -/
def listedBytes (f : List Host.Cell) (d : List Byte) (t : Nat) : Option (List Byte) :=
  (listed d t).head?.map (fun e => flashBytes f e.off e.len)

/-! ## Images -/

/-- An image of the flash (R352): its type and copy in the directory, bytes 0 to 127 of its header, LENGTH of its entry, body and
signature. -/
structure Image where
  typ : Nat
  copyB : Bool
  header : List Byte
  length : Nat
  body : List Byte
  sig : List Byte
deriving DecidableEq, Repr

def imgSlot (i : Image) : Nat := numAt i.header 7 1
def imgSvn (i : Image) : Nat := numAt i.header 8 2
def imgLen (i : Image) : Nat := numAt i.header 12 4
def imgLoad (i : Image) : Nat := numAt i.header 16 8
def imgEntry (i : Image) : Nat := numAt i.header 24 8
def imgBody (i : Image) : List Byte := i.body
def imgExtent (i : Image) : Extent := (imgLoad i, imgLoad i + imgLen i)

/-- Largest body of a type (Table 5). -/
def imgLimit (t : Nat) : Nat := nthD 0 [192 * 1024, 256 * 1024, 16 * 2 ^ 20, 64 * 2 ^ 20, 8, 8 + 32 * 2048] t

/-- Slots a type accepts (Table 5). -/
def slotAccepted (t slot : Nat) : Bool :=
  match t with
  | 0 | 1 => slot < 4
  | 2 | 3 => slot ≤ 4
  | _ => slot == 4

/-- Load address and entry as Table 5 requires them (DESIGN CHOICE, log 44: tested with check 1 of R353). -/
def addressesOk (i : Image) : Bool :=
  match i.typ with
  | 2 => imgLoad i == vaultBase && imgEntry i == 0
  | 3 => imgLoad i % 4096 == 0 && imgLoad i ≤ imgEntry i && imgEntry i < imgLoad i + imgLen i
  | _ => true

/-- Checks 1 to 5 of R353; `body` is what stands at the destination. -/
def imageOk (f : Fuses) (i : Image) (body : List Byte) : Bool :=
  let h := i.header
  let t := i.typ
  numAt h 0 4 == 0x48474D49 && numAt h 4 2 == 1 && numAt h 6 1 == t && numAt h 10 2 == 0 && numAt h 80 48 == 0
    && decide (imgLen i ≤ imgLimit t) && decide (imgLen i + 7984 ≤ i.length) && addressesOk i
    && slotAccepted t (imgSlot i)
    && decide (floorOf f t ≤ imgSvn i)
    && (match slotKey f (imgSlot i) with
        | some k => Config.slhVerify k (ascii "Iaton image") (bytesAt h 0 128) i.sig
        | none => false)
    && sha256 body == bytesAt h 32 32

/-- The image of a directory entry (R352): its body, of BODYLEN bytes and no more than the type allows, is at offset 7,984. -/
def imageAt (f : List Host.Cell) (e : DirEntry) : Image :=
  let h := flashBytes f e.off 128
  ⟨e.typ, e.copyB, h, e.len, flashBytes f (e.off + 7984) (min (numAt h 12 4) (imgLimit e.typ)), flashBytes f (e.off + 128) 7856⟩

/-- The images of a type in the order they are tried (R351). -/
def tries (f : List Host.Cell) (d : List Byte) (t : Nat) : List Image := (listed d t).map (imageAt f)

/-- The measurement register of a type (Table 5). -/
def imageMr (t : Nat) : Nat := if t < 4 then t else 5

/-- The IMAGE event of a copy. -/
def logImage (i : Image) (refused : Bool) (r : BootRecord) : BootRecord :=
  let h := bytesAt i.header 0 128
  let r := r.log 1 (imageMr i.typ) (b2n refused) (digest h) (h ++ [byte (b2n i.copyB)])
  if refused then r else { r with imgslots := setBit r.imgslots i.typ i.copyB }

/-- A change of the record that a start-up builds before its step 5. -/
def State.onDraft (s : State) (f : BootRecord → BootRecord) : State :=
  s.onWicket (fun w => { w with draft := w.draft.map f })

/-- The destination is the vault. -/
def toVault (i : Image) : Bool := i.typ == 2 || i.typ == 3

/-- The body goes to its destination (R353): the vault at LOADADDR, where length and place are ones Table 5 allows (DESIGN CHOICE,
log 44), Wicket's SRAM or Louvre's instruction memory. -/
def placeImage (s : State) (i : Image) : State :=
  if imgLimit i.typ < imgLen i then s
  else if toVault i then
    if addressesOk i ∧ (imgExtent i).inVault then { s with mem := writeBytes s.mem (imgLoad i) (imgBody i) } else s
  else s.onWicket (fun w => { w with bodies := put w.bodies i.typ (imgBody i) })

/-- The body as it stands at its destination. -/
def standing (s : State) (i : Image) : List Byte :=
  if toVault i then (List.range (imgLen i)).map (fun k => readByte s.mem (imgLoad i + k)) else lookD [] s.wicket.bodies i.typ

/-- The copies of a type up to the first that passes: each is placed and checked; one that fails is logged with REFUSED (R354). -/
def useImage (ok : Image → Bool) : List Image → State → State × Option Image
  | [], s => (s, none)
  | i :: rest, s =>
    let s := placeImage s i
    if imageOk s.wicket.fuses i (standing s i) && ok i then (s.onDraft (logImage i false), some i)
    else useImage ok rest (s.onDraft (logImage i true))

/-- The allow-list of an image of type 5 (R372). -/
def allowOf (body : List Byte) : List (BitVec 256) :=
  (List.range (min 2048 (numAt body 0 4))).map (fun k => BitVec.ofNat 256 (numAt body (8 + 32 * k) 32))

/-! ## Certificates -/

/-- The part accepts a debug certificate in boot `seq` (R345). -/
def debugCertOk (f : Fuses) (seq : Nat) (c : List Byte) : Bool :=
  let slot := numAt c 48 1
  let en := numAt c 6 2
  c.length == 7912 && numAt c 0 4 == 0x43474244 && numAt c 4 2 == 1 && decide (en < 16) && numAt c 49 7 == 0
    && (match slotKey f slot with
        | some k => Config.slhVerify k (ascii "Iaton debug certificate") (c.take 56) (c.drop 56)
        | none => false)
    && numAt c 8 32 == (deviceId f).toNat && decide (seq ≤ numAt c 40 8) && (en < 4 || slot == 4)

/-- CERTOK of a device certificate (R369). -/
def deviceCertOk (f : Fuses) (c : List Byte) : Bool :=
  let slot := numAt c 6 1
  c.length == 7920 && numAt c 0 4 == 0x43564544 && numAt c 4 2 == 1 && decide (slot < 4)
    && (match slotKey f slot with
        | some k => Config.slhVerify k (ascii "Iaton device") (c.take 64) (c.drop 64)
        | none => false)
    && numAt c 8 8 == f.serial.toNat && numAt c 16 32 == (identityKey f).toNat

end Sys2Proof.Machine
end

