-- ==== Sys2Proof/Machine/Mailbox.lean ====
section
/-! DEFINITION. The Wicket mailbox (R374 to R376) and its commands (R359, R362 to R373), the chain-area write after SEAL, reseeding and
failure of the random source (R348). -/

namespace Sys2Proof.Machine

/-! ## Serving (R376) -/

def mbCmd (s : State) (ch : Nat) : Nat := s.regF .wkMbcmd 0 ch 0 0 8
def mbLen (s : State) (ch : Nat) : Nat := s.regF .wkMbcmd 0 ch 0 16 24
def mbAddr (s : State) (ch : Nat) : Nat := s.regF .wkMbaddr 0 ch 0 6 46 * 64
def mbBusy (s : State) (ch : Nat) : Bool := bitAt (s.reg .wkMbstat 0 ch 0) 0

/-- A requester has a pending command: channel 0, channel 1, or the management interface, 2. -/
def asks (s : State) (q : Nat) : Bool := if q = 2 then s.wicket.nonce.isSome else mbBusy s q

/-- The requester served next: the first that asks after the one served last. -/
def nextServed (s : State) : Option Nat := ([1, 2, 3].map (fun i => (s.wicket.served + i) % 3)).find? (asks s)

/-- Wicket can serve a command. -/
def wicketUp (s : State) : Bool := s.wicket.running && s.rootClock

/-- The queued management quote, once its turn has come (R370, R377): refused before SEAL or without entropy. Its completion raises an
in-band interrupt and is in the status too, whichever way the bus is addressed (DESIGN CHOICE, log 109). -/
def serveMgmt (s : State) : State :=
  match s.wicket.nonce with
  | none => s
  | some n =>
    if ¬ wicketUp s ∨ nextServed s ≠ some 2 then s
    else
      let r := theRecord s
      let s := s.onWicket (fun w => { w with nonce := none, served := 2, ibis := w.ibis + 1 })
      if ¬ r.isSealed ∨ s.wicket.entropyBad then s.onWicket (fun w => { w with quoteRefused := true })
      else
        let (s, q) := makeQuote s r 2 (leBytes 32 n.toNat)
        s.onWicket (fun w => { w with quote := q, quoteReady := true, quoteRefused := false })

/-- Completion (R374): BUSY clears, DONE is set, and the source is raised as DONE rises; then a management quote may have its turn. -/
def mbEnd (s : State) (ch status result : Nat) : State :=
  let was := bitAt (s.reg .wkMbstat 0 ch 0) 1
  let s := s.setReg .wkMbstat 0 ch 0 (BitVec.ofNat 64 (2 + status * 2 ^ 8 + result % 2 ^ 32 * 2 ^ 32))
  let s := s.setRegF .wkMbcmd 0 ch 0 8 1 0
  let s := (s.onWicket (fun w => { w with served := ch })).wicketWorks
  serveMgmt (if was then s else raiseEvent s (2 - ch))

/-- The command at a channel's GO has code `cmd`, and its turn has come. -/
def mbTurn (s : State) (ch cmd : Nat) : Bool :=
  wicketUp s && mbBusy s ch && mbCmd s ch == cmd && nextServed s == some ch

/-- A command of both channels. -/
def serve (ch : Fin 2) (cmd : Nat) (s : State) (f : State → Nat → State) : Result :=
  doneOr s (if mbTurn s ch cmd then f s ch else s)

/-- A command of channel 1; on channel 0 its code is none of the channel's (Table 14). -/
def serveSecure (ch : Fin 2) (cmd : Nat) (s : State) (f : State → State) : Result :=
  doneOr s (if mbTurn s ch cmd then (if ch = 1 then f s else mbEnd s 0 1 0) else s)

/-! ## The buffer (R374) -/

/-- The buffer holds at least `n` bytes and lies wholly in DRAM or the vault. -/
def bufOk (s : State) (ch n : Nat) : Bool :=
  let a := mbAddr s ch
  let e := a + mbLen s ch - 1
  decide (n ≤ mbLen s ch) && (mbLen s ch == 0 ||
    (populated s a && populated s e && ((regionAt a == .dram && regionAt e == .dram) || (regionAt a == .vault && regionAt e == .vault))))

/-- The first line of the buffer in each of its pages. -/
def bufPages (s : State) (ch : Nat) : List Nat :=
  let a := mbAddr s ch
  (List.range ((a % 4096 + mbLen s ch + 4095) / 4096)).map (fun i => if i = 0 then a / 64 else a / 4096 * 64 + 64 * i)

/-- The ownership check of the whole buffer, by the channel's world and owner. -/
def pagesOk (ch : Nat) (write : Bool) : List Nat → State → State × Bool
  | [], s => (s, true)
  | line :: rest, s =>
    match homeCheck s line (ch == 1) ch write with
    | (s, .error _) => (s, false)
    | (s, .ok _) => pagesOk ch write rest s

/-- The buffer holds `n` bytes where it may, and passes its check for reads or writes. -/
def bufCheck (s : State) (ch n : Nat) (write : Bool) : State × Bool :=
  if bufOk s ch n then pagesOk ch write (bufPages s ch) s else (s, false)

/-- Poison met by Wicket in the first `n` bytes of a line (R307, R311). -/
def svcPoison (s : State) (line n : Nat) (x : CLine) : State :=
  s.logErr .consumed 9 0 0x36 (firstPoison line x.poison 0 (min 64 n)) (recOwner s x.entry) 0

/-- The first `n` bytes of lines of the buffer, read coherently by the channel's world and owner; a poisoned word among them is
consumed (R307). `k` bounds the lines. -/
def readLines (ch : Nat) : Nat → Nat → Nat → State → State × Option (List Byte)
  | 0, _, _, s => (s, some [])
  | k + 1, line, n, s =>
    match homeRead s.asService line (ch == 1) ch with
    | (s, .error _) => (s, none)
    | (s, .ok x) =>
      if x.poison &&& wordsOf (enables 0 (min 64 n)) ≠ 0 then (svcPoison s line n x, none)
      else
        match readLines ch k (line + 1) (n - 64) s with
        | (s, some l) => (s, some ((leBytes 64 x.data.toNat).take n ++ l))
        | (s, none) => (s, none)

/-- The first `n` bytes of the buffer; none where the access fails. -/
def mbIn (s : State) (ch n : Nat) : State × Option (List Byte) :=
  match bufCheck s ch n false with
  | (s, false) => (s, none)
  | (s, true) => readLines ch ((n + 63) / 64) (mbAddr s ch / 64) n s

def writeLines (ch : Nat) : Nat → Nat → List Byte → State → Option State
  | 0, _, _, s => some s
  | k + 1, line, l, s =>
    match homeWrite s.asService line (ch == 1) ch (BitVec.ofNat 512 (leNat (l.take 64))) (2 ^ min 64 l.length - 1) 0 with
    | (_, .error _) => none
    | (s, .ok _) => writeLines ch k (line + 1) (l.drop 64) s

/-- Bytes written at the start of the buffer: none, and nothing written, where the access fails. -/
def mbOut (s : State) (ch : Nat) (l : List Byte) : Option State :=
  match bufCheck s ch l.length true with
  | (s, true) => writeLines ch ((l.length + 63) / 64) (mbAddr s ch / 64) l s
  | (_, false) => none

/-- A command that reads `n` bytes: ACCESS, or `f` on the bytes. -/
def withIn (s : State) (ch n : Nat) (f : State → List Byte → State) : State :=
  match mbIn s ch n with
  | (s, none) => mbEnd s ch 4 0
  | (s, some l) => f s l

/-- A command that returns bytes. -/
def mbAnswer (s : State) (ch : Nat) (l : List Byte) (result : Nat) : State :=
  match mbOut s ch l with
  | none => mbEnd s ch 4 0
  | some s => mbEnd s ch 0 result

/-! ## The record -/

/-- INFO. -/
def execInfo (ch : Fin 2) (s : State) : Result :=
  serve ch 0x01 s (fun s ch => mbAnswer s ch ((theRecord s).header.take 128) (theRecord s).length)

/-- An event appended by a mailbox command: to the record before SEAL, to the runtime log after it; and its number there. -/
def appendEvent (s : State) (typ mr flags : Nat) (dig : BitVec 256) (data : List Byte) : State × Nat :=
  let r := theRecord s
  if r.isSealed then (s.onRecord (fun r => r.logLate typ mr flags dig data), r.rtCount)
  else (s.onRecord (fun r => r.log typ mr flags dig data), r.count)

/-- Bytes an event of `n` bytes of data takes. -/
def eventSize (n : Nat) : Nat := 40 + (n + 7) / 8 * 8

/-- EXTEND of an event read whole (R363 to R365). -/
def extendWith (s : State) (ch : Nat) (l : List Byte) : State :=
  let typ := numAt l 0 2
  let mr := numAt l 2 1
  let n := numAt l 4 4
  let r := theRecord s
  if 23 < mr ∧ mr ≠ 0xFF then mbEnd s ch 3 0
  else if mr < 8 then mbEnd s ch 2 0
  else if mr < 16 ∧ r.isSealed then mbEnd s ch 6 0
  else if ¬ r.fits (eventSize n) then mbEnd s ch 5 0
  else
    let (s, number) := appendEvent s typ mr (2 * ch) (BitVec.ofNat 256 (numAt l 8 32)) (bytesAt l 40 n)
    mbEnd s ch 0 number

/-- EXTEND. -/
def execExtend (ch : Fin 2) (s : State) : Result :=
  serve ch 0x02 s (fun s ch => withIn s ch 40 (fun s l =>
    if numAt l 0 2 < 0x8000 ∨ 1024 < numAt l 4 4 then mbEnd s ch 3 0
    else withIn s ch (eventSize (numAt l 4 4)) (fun s l => extendWith s ch l)))

/-- ROM_CHECK (R372, R373). -/
def execRomCheck (ch : Fin 2) (s : State) : Result :=
  serve ch 0x03 s (fun s ch => withIn s ch (max 8 (mbLen s ch)) (fun s l =>
    let dig := digest (l.drop 8)
    let ok : Bool := !bitAt s.wicket.config 32 || s.wicket.allow.contains dig
    let r := theRecord s
    if ¬ r.fits (eventSize 8) then mbEnd s ch 5 0
    else mbEnd (appendEvent s 5 (if r.isSealed then 16 else 8) (b2n !ok + 2 * ch) dig (l.take 8)).1 ch 0 (b2n ok)))

/-- SEAL (R367). -/
def execSeal (ch : Fin 2) (s : State) : Result :=
  serve ch 0x04 s (fun s ch =>
    if (theRecord s).isSealed then mbEnd s ch 6 0
    else if s.wicket.entropyBad then mbEnd s ch 8 0
    else
      let r := { theRecord s with isSealed := true, sealTime := BitVec.ofNat 64 s.now }
      let (s, sig) := signAs s "Iaton Selvedge" r.bytes
      let s := s.onWicket (fun w => { w with record := some { r with sig := sig }, chainDue := true })
      mbEnd (setPhase s 5) ch 0 r.length)

/-- CHAIN_AREA_WRITE: within 100 ms after SEAL completes (R367). -/
def execChainAreaWrite (s : State) : Result :=
  done (
    if s.wicket.chainDue ∧ wicketUp s then
      let r := theRecord s
      (s.onWicket (fun w => { writeChain w w.startSeq r.bootSeq r.digest with chainDue := false })).wicketWorks
    else s)

/-- QUOTE (R370). -/
def execQuote (ch : Fin 2) (s : State) : Result :=
  serve ch 0x05 s (fun s ch =>
    if ¬ (theRecord s).isSealed then mbEnd s ch 2 0
    else if ¬ (bufCheck s ch 17968 true).2 then mbEnd s ch 4 0
    else withIn s ch 32 (fun s nonce =>
      if s.wicket.entropyBad then mbEnd s ch 8 0
      else
        let (s', q) := makeQuote s (theRecord s) ch nonce
        match mbOut s' ch q with
        | none => mbEnd s ch 4 0
        | some s' => mbEnd s' ch 0 17968))

/-- LOG_READ. -/
def execLogRead (ch : Fin 2) (s : State) : Result :=
  serve ch 0x06 s (fun s ch => withIn s ch 8 (fun s l =>
    let r := theRecord s
    let sel := numAt l 0 4
    let all := if sel = 0 then r.whole else r.rt
    if 1 < sel then mbEnd s ch 3 0
    else mbAnswer s ch ((all.drop (numAt l 4 4)).take (mbLen s ch)) all.length))

/-- CERT_READ (R369). -/
def execCertRead (ch : Fin 2) (s : State) : Result :=
  serve ch 0x07 s (fun s ch =>
    if bufOk s ch 7920 then mbAnswer s ch s.wicket.cert s.wicket.cert.length else mbEnd s ch 4 0)

/-! ## Memory keys (R359) -/

/-- The generation of an owner replaced, and its entry of the key table with it. -/
def setGen (s : State) (o g : Nat) : State :=
  let s := s.onWicket (fun w => { w with gens := put w.gens o g })
  { s with keys := if g = 0 then del s.keys o else put s.keys o (memoryKey s.wicket.bootKey o g) }

/-- The owner named in the buffer of a key command. -/
def withOwner (s : State) (f : State → Nat → State) : State :=
  withIn s 1 2 (fun s l =>
    let o := numAt l 0 2
    if 4095 < o then mbEnd s 1 3 0 else if o < 2 ∨ o = 4095 then mbEnd s 1 2 0 else f s o)

/-- KEY_GEN. -/
def execKeyGen (ch : Fin 2) (s : State) : Result :=
  serveSecure ch 0x20 s (fun s => withOwner s (fun s o =>
    let g := lookD 0 s.wicket.gens o
    if g = 65535 then mbEnd s 1 5 0 else mbEnd (setGen s o (g + 1)) 1 0 (g + 1)))

/-- KEY_CLEAR. -/
def execKeyClear (ch : Fin 2) (s : State) : Result :=
  serveSecure ch 0x21 s (fun s => withOwner s (fun s o => mbEnd (setGen s o 0) 1 0 0))

/-! ## The memory-health record (R361, R362) -/

/-- The record with a list of entries, and COUNT as the result. -/
def healthEnd (s : State) (l : List HealthEntry) : State :=
  mbEnd (s.onWicket (fun w => writeHealth w l)) 1 0 l.length

/-- HEALTH_ADD. -/
def execHealthAdd (ch : Fin 2) (s : State) : Result :=
  serveSecure ch 0x22 s (fun s => withIn s 1 16 (fun s l =>
    let e := entryOf l
    let old := healthList s.wicket
    if e.typ.toNat < 2 ∨ 4 < e.typ.toNat then mbEnd s 1 3 0
    else if old.contains e then healthEnd s old
    else if 4096 ≤ old.length then mbEnd s 1 5 0
    else healthEnd s (old ++ [e])))

/-- HEALTH_READ. -/
def execHealthRead (ch : Fin 2) (s : State) : Result :=
  serveSecure ch 0x23 s (fun s =>
    let w := s.wicket
    mbAnswer s 1 (healthHeader w ++ healthBytes w) (healthList w).length)

/-- HEALTH_DROP: the entries of a channel leave; CH 0xFF names retired pages (Table 8). -/
def execHealthDrop (ch : Fin 2) (s : State) : Result :=
  serveSecure ch 0x24 s (fun s => withIn s 1 1 (fun s l =>
    let c := numAt l 0 1
    if 16 ≤ c ∧ c ≠ 0xFF then mbEnd s 1 3 0
    else healthEnd s ((healthList s.wicket).filter (fun e => e.ch != byte c))))

/-! ## Fuses (R347, R375) -/

def State.onFuses (s : State) (f : Fuses → Fuses) : State := s.onWicket (fun w => { w with fuses := f w.fuses })

/-- A floor with unblown bits blown, lowest first, until `n` are. -/
def blowTo (v : W64) (n : Nat) : W64 :=
  (List.range 64).foldl (fun v i => if popc v < n ∧ ¬ bitAt v i then setBit v i true else v) v

/-- SVN_COMMIT. `blown`: the fuses read back blown. -/
def execSvnCommit (ch : Fin 2) (blown : Bool) (s : State) : Result :=
  serveSecure ch 0x25 s (fun s => withIn s 1 1 (fun s l =>
    let t := numAt l 0 1
    let svn := lookD 0 s.wicket.svns t
    let now := floorOf s.wicket.fuses t
    if 5 < t then mbEnd s 1 3 0
    else if svn ≤ now then mbEnd s 1 0 now
    else if ¬ blown then mbEnd s 1 7 0
    else
      let s := s.onFuses (fun f => { f with floors := put f.floors t (blowTo (lookD 0 f.floors t) svn) })
      mbEnd s 1 0 (floorOf s.wicket.fuses t)))

/-- REVOKE. -/
def execRevoke (ch : Fin 2) (blown : Bool) (s : State) : Result :=
  serveSecure ch 0x26 s (fun s => withIn s 1 1 (fun s l =>
    let n := numAt l 0 1
    let v := s.wicket.fuses.vrevoke
    let new := setBit v n true
    if 3 < n then mbEnd s 1 3 0
    else if n = s.wicket.slot ∨ (¬ bitAt v n ∧ new = 15) then mbEnd s 1 2 0
    else if bitAt v n then mbEnd s 1 0 v.toNat
    else if ¬ blown then mbEnd s 1 7 0
    else mbEnd (s.onFuses (fun f => { f with vrevoke := new })) 1 0 new.toNat))

/-- OWNER_KEY. -/
def execOwnerKey (ch : Fin 2) (blown : Bool) (s : State) : Result :=
  serveSecure ch 0x27 s (fun s => withIn s 1 32 (fun s l =>
    if s.wicket.fuses.okey ≠ 0 then mbEnd s 1 2 0
    else if ¬ blown then mbEnd s 1 7 0
    else mbEnd (s.onFuses (fun f => { f with okey := BitVec.ofNat 256 (leNat l) })) 1 0 0))

/-! ## Reset, other codes, random bits -/

/-- RESET: a start-up begins, and the command in progress is abandoned (R375). -/
def execReset (ch : Fin 2) (s : State) : Result :=
  serveSecure ch 0x28 s (fun s => if warmAllowed s then warmRestart s 6 else s)

/-- The codes of Table 14 for a channel. -/
def knownCmd (ch cmd : Nat) : Bool := (1 ≤ cmd && cmd ≤ 7) || (ch == 1 && 0x20 ≤ cmd && cmd ≤ 0x28)

/-- BADCMD. -/
def execBadcmd (ch : Fin 2) (s : State) : Result :=
  doneOr s (if mbTurn s ch (mbCmd s ch) ∧ ¬ knownCmd ch (mbCmd s ch) then mbEnd s ch 1 0 else s)

/-- DRBG_RESEED (R348): the count of requests starts again. -/
def execDrbgReseed (s : State) : Result :=
  done (if 65536 ≤ s.wicket.draws then (s.onWicket (fun w => { w with draws := 0 })).wicketWorks else s)

/-- ENTROPY_TEST_FAIL (R348). -/
def execEntropyTestFail (s : State) : Result :=
  done (if s.wicket.running then (s.onWicket (fun w => { w with entropyBad := true })).wicketWorks else s)

end Sys2Proof.Machine
end

