-- ==== Sys2Proof/Machine/Oec.lean ====
section
/-! DEFINITION. The events of offload complexes (chapter 13): lane-slots, the work of lanes, completions, the end of an instance
reset. -/

namespace Sys2Proof.Machine

/-- A complex whose clock runs. -/
def oecOn (s : State) (k : Fin 4) : Bool := s.rootClock && !clockOff s (.oec k)

/-- INSTANCE_RESET_DONE (R400). -/
def execInstanceResetDone (k : Fin 4) (v : Fin 256) (s : State) : Result := doneOr s (viResetDone s k v)

/-- LANE_SLOT (R399, R402): a free lane takes a descriptor; where no lane is usable, heads of queues end with NOLANE (R387). -/
def execLaneSlot (k : Fin 4) (lane : Fin 8) (s : State) : Result :=
  doneOr s (
    if oecOn s k ∧ blockRuns s (.oec k) ∧ (s.lane k lane).job.isNone ∧ (laneUsable s k lane ∨ ¬ anyLane s k) then
      laneSlotOf s k lane
    else s)

/-- The work of the job on a lane, of one operation, taking `cycles` lane cycles. -/
def laneWork (s : State) (k : Fin 4) (lane : Fin 8) (op cycles : Nat) : State :=
  match (s.lane k lane).job with
  | none => s
  | some j =>
    if ¬ oecOn s k ∨ j.result.isSome ∨ descOp j.desc ≠ op then s
    else
      let (s, o) := runJob s k lane j
      let x := s.vi k j.vi
      let s := s.setVi k j.vi { x with vt := x.vt + cycles * (vtScale / max 1 (s.regF .oecVicfg k j.vi 0 32 8)) }
      s.setLane k lane { s.lane k lane with job := some { j with result := some o } }

/-- COMPRESS (R380, R386). -/
def execCompress (k : Fin 4) (lane : Fin 8) (cycles : Nat) (s : State) : Result := doneOr s (laneWork s k lane 1 cycles)

/-- DECOMPRESS (R381, R383). -/
def execDecompress (k : Fin 4) (lane : Fin 8) (cycles : Nat) (s : State) : Result := doneOr s (laneWork s k lane 2 cycles)

/-- CRC (R394). -/
def execCrc (k : Fin 4) (lane : Fin 8) (cycles : Nat) (s : State) : Result := doneOr s (laneWork s k lane 3 cycles)

/-- COMPLETION_RECORD (R391, R401), after which the lane is free. -/
def execCompletionRecord (k : Fin 4) (lane : Fin 8) (s : State) : Result :=
  doneOr s (match (s.lane k lane).job with
    | some j => match j.result with
      | some o => if oecOn s k then updateCand (freeLane (completeJob s k lane j o) k lane) k else s
      | none => s
    | none => s)

end Sys2Proof.Machine
end

