-- ==== Sys2Proof/Machine/OwnSet.lean ====
section
/-! DEFINITION. OWN.SET and the sequencer that carries it out (R120, R333-R336), and the filling of an ownership cache (R327). -/

namespace Sys2Proof.Machine

/-- A page of the spare region of the published map (R315, R333). -/
def inSpare (s : State) (pa : Nat) : Bool :=
  match s.map with
  | none => false
  | some m => decide (regionOf pa = .dram) && decide (spareBase m * 64 ≤ pa) && decide (pa < 2 ^ m.n * 64)

/-- The refusals of OWN.SET with status 0b10 (R333). -/
def ownRefused (s : State) (pa : Nat) (old new : W16) : Bool :=
  inTable s pa || inSpare s pa || (entLock old && decide (new ≠ old) && decide (new ≠ setBit old 15 false))
    || (entState new == 6 || entState new == 7 || !ownerAllowed (entState new) (entOwner new))

/-- The old entry as the sequencer reads it at the table line's home: 0x0000 from a poisoned word, with whether it was poisoned. -/
def readOld (s : State) (a : Nat) : State × (W16 × Bool) :=
  let s := settleLine s (a / 64)
  let (s, (d, p)) := cohRead s (a / 64) 1
  let bad := bitAt p (a % 64 / 8)
  (s, (if bad then 0 else d.extractLsb' (8 * (a % 64)) 16, bad))

/-- Every cached copy of the lines of a page is written back and invalidated (R334). -/
def recallPage (s : State) (pa : Nat) : State :=
  (List.range 64).foldl (fun s i => flushLine s (pa / 4096 * 64 + i)) s

/-- The entry is written coherently at its home; with a poisoned word the whole word is replaced (R334). -/
def writeEntry (s : State) (a : Nat) (new : W16) (bad : Bool) : State :=
  let off := if bad then a % 64 / 8 * 8 else a % 64
  let len := if bad then 8 else 2
  homeMerge s (a / 64) 1 0xA001 (atOffset (new.setWidth 512) (a % 64)) (enables off len) 0

/-- The table line leaves every ownership cache. -/
def dropTableLine (s : State) (line : Nat) : State := { s with ownc := s.ownc.filter (fun x => x.line != line) }

/-- The 64 lines of a page written as zeros under a key (R334). -/
def zeroPage (s : State) (pa ko : Nat) : State :=
  (List.range 64).foldl (fun s i => memWrite s (pa / 4096 * 64 + i) ko 0 0) s

/-- OWN.SET on the page of `pa`: its answer in gd (R120, R333, R334). Where there is no old entry, the low bits are free (DESIGN CHOICE, log 85). -/
def ownSetPage (s : State) (pa : Nat) (new : W16) : State × W64 :=
  match entryAddr s pa with
  | none => (s, 0x4000000000000000 ||| (Config.noEntry s.free).setWidth 64)
  | some a =>
    let (s, (old, bad)) := readOld s a
    if ownRefused s pa old new then (s, old.setWidth 64 ||| 0x8000000000000000)
    else
      let s := recallPage s pa
      let s := writeEntry s a new bad
      let s := dropTableLine s (a / 64)
      let s := match keyOwner new with
        | some ko => if keyOwner new ≠ keyOwner old ∧ ¬ bad then zeroPage s pa ko else s
        | none => s
      (s, old.setWidth 64)

/-- OWN.SET gd, ga, gb (R120, R333, R334). -/
def execOwnSet (c : CoreId) (f : RRR) (s : State) : Result :=
  done (runInstr s c (.ownSet c f) (fun s =>
    needsLevel s c (.ownSet c f) 3 (fun s =>
      let k := s.core c
      if k.ie then s.except c (illegalExc (wordOf (.ownSet c f)))
      else
        let (s, v) := ownSetPage s (k.gr f.ra).toNat ((k.gr f.rb).setWidth 16)
        (s.onCore c (fun k => k.wg f.rd v)).retire c)))

/-- The number of an ownership cache's agent. -/
def ownCacheOf : OwnCache → Nat
  | .mc n => n
  | .vlt n => 16 + n
  | .rc k => 112 + k

/-- OWNERSHIP_CACHE_FILL: an agent's cache takes the table line of a page on a miss (R327). -/
def execOwnershipCacheFill (a : OwnCache) (pa : Pa) (s : State) : Result :=
  doneOr s (match (if tableLocked s then entryAddr s pa.toNat else none) with
    | some e => (ownFill s (ownCacheOf a) (e / 64)).1
    | none => s)

end Sys2Proof.Machine
end

