-- ==== Sys2Proof/Machine/Pins.lean ====
section
/-! DEFINITION. GPIO edges and WAKE_N (R15, R443), and the management I3C target's Wicket commands (R377, R422). -/

namespace Sys2Proof.Machine

/-! ## Pins -/

/-- Table 1 of chapter 10 and R302: the level of ERR_CORR_N, low while CORR and CORREN are both 1. -/
def errCorrPin (s : State) : Bool := !(bitAt (s.reg .meshErrsig 132 0 0) 0 && bitAt (s.reg .meshErrsig 132 0 0) 8)

/-- The level of ERR_NONFATAL_N, low while NONFATAL and NFEN are both 1 (R302). -/
def errNonfatalPin (s : State) : Bool := !(bitAt (s.reg .meshErrsig 132 0 0) 1 && bitAt (s.reg .meshErrsig 132 0 0) 9)

/-- The level of ERR_FATAL_N (R319). -/
def errFatalPin (s : State) : Bool := !s.power.errFatal

/-- GPIO_EDGE (R15, Table 1 of 16, Table 5 of 14): a pin changes level; each edge detector that selects this edge acts. -/
def execGpioEdge (pin : Fin 16) (level : Bool) (s : State) : Result :=
  done (
    if bitAt s.power.gpio pin.val = level then s
    else
      let s := { s with power := { s.power with gpio := setBit s.power.gpio pin.val level } }
      let k := if level then pin.val else 16 + pin.val
      let t := if bitAt (s.reg .irtGpioedge 0 0 0) k ∧ s.power.clocks then raiseEvent s (128 + pin.val) else s
      let s := if t.stalled then s else t
      if bitAt (s.reg .lvGpiowake 0 0 0) k then wakeEvent s .gpio else s)

/-- WAKE_N_FALL (R443, Table 5 of 14). -/
def execWakeNFall (s : State) : Result :=
  doneOr s (
    let s := if s.power.clocks then raiseEvent s 5 else s
    wakeEvent s .wakeN)

/-! ## The management target -/

/-- An address match (R422): while the package sleeps, or enters a package state, it is a wake event. -/
def execMgmtAddressMatch (s : State) : Result := doneOr s (wakeEvent s .i3c)

/-- What the private read that follows returns. -/
def answerMgmt (s : State) (l : List Byte) : State := s.onWicket (fun w => { w with answer := l })

/-- MGMT_STATUS, answered by the always-on domain, also after start-up has stopped (R377); asleep, the transfer is not acknowledged and its
address match is a wake event (Table 5 of 14). -/
def execMgmtStatus (s : State) : Result :=
  if s.power.pkg ≠ .running then doneOr s (wakeEvent s .i3c)
  else
    done (
      if s.power.vaon then
        answerMgmt s (leBytes 8 (s.reg .wkBootstat 0 0 0).toNat ++ leBytes 8 (theRecord s).bootSeq
          ++ [byte (b2n s.wicket.quoteReady + 2 * b2n s.wicket.quoteRefused)])
      else s)

/-- A command that needs Wicket running: asleep, its address match wakes the package, and the controller tries again. -/
def mgmt (s : State) (f : State → State) : Result :=
  doneOr s (if s.power.pkg ≠ .running then wakeEvent s .i3c else if wicketUp s then f s.wicketWorks else s)

/-- MGMT_RECORD_READ. -/
def execMgmtRecordRead (offset : W32) (s : State) : Result :=
  mgmt s (fun s => answerMgmt s (((theRecord s).whole.drop offset.toNat).take 256))

/-- MGMT_QUOTE_REQUEST: queued under R376, and the read that follows returns nothing; a newer request replaces one not yet served. -/
def execMgmtQuoteRequest (nonce : BitVec 256) (s : State) : Result :=
  mgmt s (fun s => serveMgmt (s.onWicket (fun w => { w with nonce := some nonce, answer := [], quoteReady := false,
                                                            quoteRefused := false })))

/-- MGMT_QUOTE_READ. -/
def execMgmtQuoteRead (offset : W32) (s : State) : Result :=
  mgmt s (fun s => answerMgmt s ((s.wicket.quote.drop offset.toNat).take 256))

/-- MGMT_CERT_READ. -/
def execMgmtCertRead (offset : W32) (s : State) : Result :=
  mgmt s (fun s => answerMgmt s ((s.wicket.cert.drop offset.toNat).take 256))

end Sys2Proof.Machine
end

