-- ==== Sys2Proof/Machine/Pm.lean ====
section
/-! DEFINITION. Counter overflow, precise sampling and the window counters of the stops (chapter 17). -/

namespace Sys2Proof.Machine

/-- PMC_OVERFLOW: a counter that runs, at 2^48 - 1, counts one more event of its kind in the present context (R465, R466). -/
def execPmcOverflow (c : CoreId) (n : Fin 8) (s : State) : Result :=
  doneRun s (
    let k := s.core c
    let ctl := k.crEff 0x80
    let sel := k.crEff (0x90 + n)
    if ¬ bitAt ctl n ∨ bitAt ctl 9 ∨ ¬ s.countingAllowed c ∨ (k.crBase (0x88 + n)).toNat ≠ 2 ^ 48 - 1 ∨ fld sel 0 10 = 0
        ∨ ¬ passesFilter (fld sel 10 4) k.pl k.secure then s
    else
      let was := overflowPending s c
      let s := s.onCore c (fun k => (k.crPut (0x88 + n) 0).orBits 0x82 (1#64 <<< n.val))
      if overflowPending s c ∧ ¬ was then localAge s c 8 else s)

/-! ## Sampling (R469-R471) -/

/-- A sample record (Table 2 of 17): what its instruction's retirement gave, and what the pipeline knows of it. -/
def sampleRecord (head : W512) (daddr paddr target : W64) (latency : W32) (source : BitVec 3) : W512 :=
  head ||| field512 daddr 8 ||| field512 paddr 16 ||| field512 (latency.setWidth 64) 32
    ||| field512 (BitVec.ofNat 64 (source.toNat * 16)) 38 ||| field512 target 48

/-- The command's addresses can be those of the sampled instruction: its own, and of a data byte that translation maps (R211). -/
def sampleFits (head : W512) (iaddr daddr paddr : W64) : Bool :=
  head.setWidth 64 == iaddr && decide (paddr.toNat < 2 ^ 52) &&
    (daddr == 0 && paddr == 0 || daddr != 0 && fld daddr 0 12 == fld paddr 0 12)

/-- A sample not written (R470). -/
def Core.lose (k : Core) : Core := k.crPut 0xA3 (setFld (k.crBase 0xA3) 16 16 (satAdd 16 (fld (k.crBase 0xA3) 16 16) 1))

/-- SAMPLE_TAKEN: the record of the oldest sampled instruction that has retired is made and held, or lost while two are (R469, R470). -/
def execSampleTaken (c : CoreId) (iaddr daddr paddr target : W64) (latency : W32) (source : BitVec 3) (s : State) : Result :=
  doneRun s (
    let k := s.core c
    match k.smpDue with
    | [] => s
    | head :: rest =>
      if ¬ sampleFits head iaddr daddr paddr then s
      else if 2 ≤ k.smpHeld.length then s.onCore c (fun k => { k.lose with smpDue := rest })
      else s.onCore c (fun k => { k with smpDue := rest, smpHeld := k.smpHeld ++ [sampleRecord head daddr paddr target latency source] }))

/-- SAMPLE_RECORD_WRITE: the oldest held record is written at the home with the identity of the buffer, or lost (R470, R471). It has the class
of the core in the buffer's world (R254), and its stop's regulator charges it (R286); its PRIV, of BPL, is checked nowhere in memory
(R255). -/
def execSampleRecordWrite (c : CoreId) (s : State) : Result :=
  doneOr s (
    let k := s.core c
    match k.smpHeld with
    | [] => s
    | r :: rest =>
      let s := s.onCore c (fun k => { k with smpHeld := rest })
      let ptr := k.crBase 0xA2
      let st := k.crBase 0xA3
      let wr := fld ptr 0 16
      let pa := fld (k.crBase 0xA1) 12 40 * 4096 + 64 * wr
      let ok : Bool := decide (wr < fld ptr 16 16) && populated s pa
        && (decide (regionOf pa = .dram) || decide (regionOf pa = .vault))
      if ¬ ok then s.onCore c Core.lose
      else
        match homeWrite (chargeAccess s (c / 2) (pa / 64) (qosIn s c (bitAt st 44))) (pa / 64) (bitAt st 44) (fld st 32 12) r (2 ^ 64 - 1) 0 with
        | (s, .error _) => s.onCore c Core.lose
        | (s, .ok _) =>
          let s := s.onCore c (fun k => k.crPut 0xA2 (setFld (k.crBase 0xA2) 0 16 (wr + 1)))
          if fld ptr 32 16 ≠ 0 ∧ fld ptr 32 16 = (wr + 1) % 2 ^ 16 then
            let was := localPending s c 9
            let s := s.onCore c (fun k => k.orBits 0xA3 1)
            if was then s else localAge s c 9
          else s)

/-! ## Window counters (R472) -/

/-- A stop's window ends: its counts are latched and start again. -/
def windowEnd (s : State) (n : Nat) : State :=
  if ¬ bitAt (s.reg .pmWincfg n 0 0) 0 then s
  else
    let t := lookD [] s.pm n
    let timed (i : Nat) : Nat := (Config.pmTiming s.free i).toNat
    let count (i : Nat) : Nat := lookD 0 t i
    let word (lo hi : Nat) : W64 := BitVec.ofNat 64 (lo % 2 ^ 32 + hi % 2 ^ 32 * 2 ^ 32)
    let s := { s.useFree with pm := del s.pm n }
    let s := (s.setReg .pmTraf n 0 0 (word (timed 0) (timed 1))).setReg .pmTraf n 1 0 (word (timed 2) (timed 3))
    let s := if memoryStop n then
        (((s.setReg .pmMem n 0 0 (word (count 4) (count 5))).setReg .pmMem n 1 0 (word (count 6) (count 7))).setReg .pmMem n 2 0
          (word (count 8) (timed 9))).setReg .pmMem n 3 0 (word (timed 10) 0)
      else s
    (s.setReg .pmWinend n 0 0 (BitVec.ofNat 64 s.now)).setReg .pmWinseq n 0 0
      (BitVec.ofNat 64 ((s.regF .pmWinseq n 0 0 0 32 + 1) % 2 ^ 32))

/-- PM_WINDOW_END of a stop: at a multiple of its window, where that has not ended there yet. -/
def execPmWindowEnd (stop : Fin 132) (s : State) : Result :=
  doneRun s (
    if s.now % (s.regF .pmWincfg stop 0 0 1 14 * 1200) = 0 ∧ s.reg .pmWinend stop 0 0 ≠ BitVec.ofNat 64 s.now then windowEnd s stop
    else s)

end Sys2Proof.Machine
end

