-- ==== Sys2Proof/Machine/Rc.lean ====
section
/-! DEFINITION. PCIe, CXL and DMA (chapter 15): configuration and outbound requests of cores, completions, inbound requests, links
and slots. -/

namespace Sys2Proof.Machine

/-! ## Outbound requests (R431, R432, R436) -/

/-- An access of a core to a region it names: a load to `rd`, or a store of `v`. Nothing is done where the address lies elsewhere. -/
def outboundAccess (s : State) (c : Nat) (i : Instr) (rd : RegNo) (addr : W64) (write : Bool) (len : Nat) (v : W64)
    (here : Region → Bool) : State :=
  runInstr s c i (fun s =>
    match translate s c addr (if write then .store else .load) (addr.toNat % len == 0) with
    | (s, .error e) => s.except c e
    | (s, .ok x) =>
      if ¬ here (regionAt x.pa) then s
      else if write then storeInstr s c len addr v false
      else loadInstr s c rd .gzx len addr false)

/-- An access of Wicket or Louvre, by 192 and 193, to an aligned physical address: answered at once, or sent to a port (R436). One that an
earlier one has not ended for waits its turn: nothing is done. -/
def serviceAccess (s : State) (who : Nat) (pa : Nat) (write : Bool) (len : Nat) (v : W64) : State :=
  let go (k : Nat) (cfg : Bool) (x : State × OutRes) : State :=
    let (s, r) := x
    let put_ (s : State) (a : SvcAccess) : State := s.setRc k { s.rc k with svc := put (s.rc k).svc who a }
    if ((look (s.rc k).svc who).bind (·.acc)).isSome then s
    else
      match r with
      | .value d => put_ s ⟨none, some (some (if write then 0 else d))⟩
      | .abort _ _ _ => put_ s ⟨none, some none⟩
      | .sent k p =>
        let (s, tag) := sendOut s k p who pa cfg
        put_ s ⟨some ⟨0, .none, len, pa, BitVec.ofNat 64 pa, write, v, some k, tag, cfg, none⟩, none⟩
  if pa % len ≠ 0 then s
  else
    match regionAt pa with
    | .pcie k => go k false (memAccess s k (pa % 2 ^ 45) write)
    | .ecam k => go k true (cfgAccess s k (pa % 2 ^ 28) len write (v.setWidth 512))
    | _ => s

/-- An outbound access of its requester: a core's translated address, or a physical one of Wicket while it runs, or of Louvre. -/
def outbound (s : State) (who : Requester) (i : Instr) (rd : RegNo) (addr : W64) (write : Bool) (len : Nat) (v : W64)
    (here : Region → Bool) : Result :=
  match who with
  | .core c => done (outboundAccess s c i rd addr write len v here)
  | .wicket => doneRun s (if s.wicket.running ∧ s.rootClock ∧ here (regionAt addr.toNat) then serviceAccess s 192 addr.toNat write len v else s)
  | .louvre => doneRun s (if s.rootClock ∧ here (regionAt addr.toNat) then serviceAccess s 193 addr.toNat write len v else s)

/-- CONFIG_ACCESS: an access to ECAM (R431, R432). -/
def execConfigAccess (who : Requester) (rd : RegNo) (addr : W64) (write : Bool) (wd : Width) (v : W64) (s : State) : Result :=
  outbound s who (.configAccess who rd addr write wd v) rd addr write (widthBytes wd) v
    (fun r => match r with | .ecam _ => true | _ => false)

/-- OUTBOUND_REQUEST: an access to a PCIe window (R436). -/
def execOutboundRequest (who : Requester) (rd : RegNo) (addr : W64) (write : Bool) (wd : Width) (v : W64) (s : State) : Result :=
  outbound s who (.outboundRequest who rd addr write wd v) rd addr write (widthBytes wd) v
    (fun r => match r with | .pcie _ => true | _ => false)

/-! ## Inbound requests (R440-R442, R448) -/

/-- What carries an IDE stream's identity: whether it goes on. A MAC failure ends the stream, and TLPs of a stream not in use are discarded
(R448). -/
def ideTlp (s : State) (k p : Nat) (id : BitVec 8) (macOk : Bool) : State × Bool :=
  match ideStream s k p (fun _ v => fld v 3 8 == id.toNat) with
  | none => (s, false)
  | some i =>
    if macOk then (s, true)
    else
      let v := s.reg .rcIdectl k i 0
      (raiseAer (s.setReg .rcIdectl k i 0 (setBit (setBit v 0 false) 14 true)) k p aerIde, false)

/-- COMPLETION of an outstanding non-posted request (R432, R436); one that its IDE stream discards is no completion (R448). -/
def execCompletion (k : Fin 8) (tag : Nat) (r : Response) (ide : Option (BitVec 8)) (macOk : Bool) (s : State) : Result :=
  doneOr s (match (s.rc k).out.find? (fun x => x.tag == tag) with
    | some x =>
      match ide with
      | none => respondTo s k tag x.who x.port r false false
      | some id =>
        match ideTlp s k x.port id macOk with
        | (s, true) => respondTo s k tag x.who x.port r false false
        | (s, false) => s
    | none => s)

/-- COMPLETION_TIMEOUT (R436). -/
def execCompletionTimeout (k : Fin 8) (tag : Nat) (s : State) : Result :=
  doneOr s (match (s.rc k).out.find? (fun x => x.tag == tag) with
    | some x => raiseAer (respondTo s k tag x.who x.port .abort true false) k x.port aerTimeout
    | none => s)

def rcStop (k : Nat) : Nat := nthD 0 [120, 121, 124, 125, 126, 127, 130, 131] k

/-- IDE step: whether the request goes on. Traffic without IDE from a range that requires it, in use or not (DEDUCED, log 103), is
discarded. -/
def ideCheck (s : State) (r : Inbound) : State × Bool :=
  match r.ide with
  | some id => ideTlp s r.rc r.port id r.macOk
  | none =>
    (s, !(List.range 8).any (fun i =>
      let v := s.reg .rcIdectl r.rc i 0
      fld v 1 2 == r.port.val && bitAt v 11 && fld v 16 16 ≤ r.sid.toNat && r.sid.toNat ≤ fld v 32 16))

/-- The completion of an inbound read is sent, in the IDE stream that covers its requester (R440, R448). -/
def reply (s : State) (r : Inbound) (x : Reply) : State :=
  if r.write then s
  else
    let sid := r.sid.toNat
    let i := ideStream s r.rc r.port (fun _ v => fld v 16 16 ≤ sid && sid ≤ fld v 32 16)
    s.setRc r.rc { s.rc r.rc with sent := some ⟨sid, i, x⟩ }

/-- Bytes and enables of a payload that fall into the line at `base`. -/
def lineOf (r : Inbound) (pa base : Nat) : W512 × Nat :=
  (List.range 64).foldl (fun (acc : W512 × Nat) i =>
    if base + i < pa then acc
    else
      match r.data[base + i - pa]?, r.enable[base + i - pa]? with
      | some b, some true => (acc.1 ||| ((b.setWidth 512) <<< (8 * i)), acc.2 + 2 ^ i)
      | _, _ => acc) (0, 0)

/-- The lines that `len` bytes from `pa` touch. -/
def linesOf (pa len : Nat) : List Nat := if len = 0 then [] else (List.range ((pa % 64 + len + 63) / 64)).map (fun i => pa / 64 + i)

/-- A transaction of a DMA master whose check has failed (R331). -/
def dmaDenied (s : State) (pa o : Nat) : State := denyLast (s.bump .ownDenycnt 0 0 0 0 16 1) pa o

/-- An inbound write to memory, line by line (R248, R306): a line whose check fails is discarded, and the request counted once (R331); a
processing hint allocates in the LLC. -/
def inboundWrite (s : State) (r : Inbound) (pa : Nat) (secure : Bool) (o : Nat) : State :=
  let s := if r.poisoned then raiseAer s r.rc r.port aerPoison else s
  let step (acc : State × Bool) (line : Nat) : State × Bool :=
    let (s, failed) := acc
    let (d, en) := lineOf r pa (64 * line)
    let s := chargeAccess s (rcStop r.rc) line (s.regF .rcCfg r.rc 0 0 12 6)
    match homeWrite s line secure o d en (if r.poisoned then allPoison else 0) with
    | (s, .error _) => (s, true)
    | (s, .ok _) =>
      (if r.hint ∧ ¬ isVault line ∧ (llcFind s line).isNone then
        match homeRead s line secure o with
        | (s, .ok x) => serveReady (llcAllocate s line (s.regF .rcCfg r.rc 0 0 12 6) x true)
        | (s, .error _) => s
      else s, failed)
  let (s, failed) := (linesOf pa r.data.length).foldl step (s, false)
  if failed then dmaDenied s pa o else s

/-- An inbound read of memory, line by line: a failed check ends it with Completer Abort, and poison halts its stream (R307, R442). `got`
holds the bytes of earlier lines. -/
def inboundRead (r : Inbound) (secure : Bool) (o pa : Nat) (got : List Byte) : List Nat → State → State
  | [], s => reply s r (.data got)
  | line :: rest, s =>
    let s := chargeAccess s (rcStop r.rc) line (s.regF .rcCfg r.rc 0 0 12 6)
    match homeRead s line secure o with
    | (s, .error _) => reply (dmaDenied s pa o) r .abort
    | (s, .ok x) =>
      let lo := if 64 * line < pa then pa - 64 * line else 0
      let hi := min 64 (pa + r.len - 64 * line)
      let got := got ++ ((leBytes 64 x.data.toNat).drop lo).take (hi - lo)
      if x.poison &&& wordsOf (enables lo (hi - lo)) != 0 then
        let s := s.logErr .consumed 6 r.rc 0x33 (firstPoison line x.poison lo (hi - lo)) (recOwner s x.entry) (r.sid.setWidth 64)
        reply (haltStream s r.rc r.sid.toNat) r (.poisoned got)
      else inboundRead r secure o pa got rest s

/-- A request that its stream's halt refuses (R442). -/
def haltedRequest (s : State) (r : Inbound) : State := reply (s.bump .rcShalt r.rc 0 0 32 16 1) r .unsupported

/-- A blocked request or a translation fault (R440, R444). -/
def faultedRequest (s : State) (r : Inbound) (f : IoFault) : State :=
  reply (ioFault s (.rc r.rc) r.addr r.sid.toNat r.write f) r .unsupported

/-- Steps 4 to 7 of R440, after the doorbell test. -/
def inboundMemory (s : State) (r : Inbound) (page : Bool) : State :=
  let k : Nat := r.rc
  let sid := r.sid.toNat
  if (s.rc k).halted.contains sid then haltedRequest s r
  else if page then faultedRequest s r (9, false)
  else
    match streamOwner s k sid with
    | (s, none) => faultedRequest s r (10, false)
    | (s, some (secure, o)) =>
      match ioTranslate s (.rc k) sid secure o r.addr r.write with
      | (s, .error f) => faultedRequest s r f
      | (s, .ok pa) =>
        if r.write then inboundWrite s r pa secure o else inboundRead r secure o pa [] (linesOf pa r.len) s

/-- A doorbell of a stream: refused while it is halted (R440, R456). -/
def inboundDoorbell (s : State) (k sid : Nat) (data : W32) : State :=
  if (s.rc k).halted.contains sid then s.bump .rcShalt k 0 0 32 16 1 else doorbellIn s k sid data

/-- The doorbell page (R456). -/
def doorbellPage (s : State) : Nat := fld (s.reg .irtDbaddr 0 0 0) 12 52

/-- A memory request past its IDE check (R440). A request with a PASID prefix receives Unsupported Request (R430), after the check units,
which see every write (DEDUCED, log 127). -/
def inboundPassed (s : State) (r : Inbound) : State :=
  let s := if r.write then (List.range 4).foldl (fun s u =>
      checkUnit s r.rc u r.sid.toNat r.addr.toNat r.data r.enable r.poisoned) s else s
  if r.ecrcBad then raiseAer s r.rc r.port aerEcrc
  else if r.pasid then reply s r .unsupported
  else if r.addr.toNat / 4096 = doorbellPage s then
    if r.write ∧ r.addr.toNat % 4096 = 0 ∧ r.data.length = 4 ∧ r.enable = [true, true, true, true] then
      inboundDoorbell s r.rc r.sid.toNat (BitVec.ofNat 32 (leNat r.data))
    else inboundMemory s r true
  else inboundMemory s r false

/-- An inbound request at a link (R430, R440): INTx messages are discarded, translation requests are not supported, and one larger than the
supported payload or read request is malformed (log 127). -/
def inbound (s : State) (r : Inbound) : State :=
  if ¬ s.rootClock ∨ ¬ linkUp s r.rc r.port then s
  else
    match r.kind with
    | .intx => s
    | .translation => reply s { r with write := false } .unsupported
    | .memory =>
      if (if r.write then 512 < r.data.length else 4096 < r.len) then raiseAer s r.rc r.port aerMalformed
      else
        match ideCheck s r with
        | (s, false) => if r.ide.isNone then reply s r .unsupported else s
        | (s, true) => inboundPassed s r

/-- INBOUND_REQUEST (R440). Nothing is accepted while RUN is 0 or the link is down (R429); containment stops outbound requests only (R435). -/
def execInboundRequest (r : Inbound) (s : State) : Result := doneOr s (inbound s r)

/-- A doorbell write as the request it is: 4 bytes to the doorbell page (R440, R456). -/
def doorbellTlp (s : State) (rc : Fin 8) (p : Fin 4) (sid : W16) (data : W32) (ide : Option (BitVec 8)) (macOk : Bool) : Inbound where
  kind := .memory
  pasid := false
  ecrcBad := false
  rc := rc
  port := p
  sid := sid
  addr := BitVec.ofNat 64 (doorbellPage s * 4096)
  write := true
  len := 4
  data := leBytes 4 data.toNat
  enable := [true, true, true, true]
  poisoned := false
  relaxed := false
  hint := false
  ide := ide
  macOk := macOk

/-- DOORBELL: a doorbell write of a stream, in the order of every inbound request (R440, R450, R456). -/
def execDoorbell (rc : Fin 8) (p : Fin 4) (sid : W16) (data : W32) (ide : Option (BitVec 8)) (macOk : Bool) (s : State) : Result :=
  doneOr s (inbound s (doorbellTlp s rc p sid data ide macOk))

/-! ## CXL.mem (R438, R439) -/

/-- CXL_MEM_REQUEST: a line request under an owner at RC[k]; the device may not answer, or may return the line with poison. -/
def execCxlMemRequest (k : Fin 4) (line : BitVec 46) (o : MemOp) (owner : Owner) (timeout devPoison : Bool) (s : State) : Result :=
  doneOr s (
    let l := line.toNat
    let write : Bool := match o with
      | .read => false
      | .write _ _ _ => true
    if ¬ s.rootClock ∨ cxlRc s (64 * l) ≠ some k.val then s
    else
      match targetCheck s l false owner.toNat write with
      | (s, .error _) => if write then lateWrite s (64 * l) owner.toNat else s
      | (s, .ok (ko, _)) =>
        match hdmPort s k (64 * l) with
        | none => s
        | some p =>
          if timeout then raiseAer s k p aerTimeout
          else
            match o with
            | .read =>
              let s := if devPoison then s.setNote l { s.note l with poison := true } else s
              (cxlReadAt false s k l ko).1
            | .write d en q =>
              let (s, (old, bad)) := cxlReadAt false s k l ko
              let full : Bool := en == BitVec.allOnes 64
              cxlWriteAt false s k l ko (mergeBytes old d en.toNat) (if full then q else bad ||| q))

/-! ## Ports -/

/-- PME_MESSAGE (R443, R451). -/
def execPmeMessage (k : Fin 8) (p : Fin 4) (s : State) : Result :=
  doneOr s (
    if ¬ linkUp s k p then s
    else
      let x := s.port k p
      let s := s.setPort k p { x with pme := true }
      if x.pme then s else raiseEvent s (48 + 4 * k + p))

/-- The lanes a link negotiates: the widest of the family's widths within what is offered and the port's lanes (R428). -/
def linkWidth (lanes width : Nat) : Nat := ([16, 8, 4, 2, 1].find? (fun w => w ≤ width && w ≤ lanes)).getD 0

/-- LINK_UP: a port that may train reaches L0 (R428, R434, R438). The rate is at most MAXSPEED, the width at most the port's; a link
without lanes or rate does not come up. -/
def execLinkUp (k : Fin 8) (p : Fin 4) (width : BitVec 5) (speed : BitVec 3) (cxl : Bool) (s : State) : Result :=
  done (
    let ctl := s.reg .rcPortctl k p 0
    if ¬ portTrains s k p ∨ width = 0 ∨ speed = 0 then s
    else
      let up : Bool := cxl && decide (k.val < 4) && (s.regF .rcCfg k 0 0 8 4).testBit p
      let v := s.reg .rcPortstat k p 0
      let v := setFld (setFld (setFld v 0 3 2) 3 5 (linkWidth (portLanes (s.regF .rcCfg k 0 0 0 3) p) width.toNat)) 8 3 (min speed.toNat (fld ctl 8 3))
      (s.setReg .rcPortstat k p 0 (setBit v 11 up)).setPort k p { s.port k p with turnOff := false })

/-- Every non-posted request outstanding to a port ends with IO_ABORT kind 4 (R435). -/
def failOutstanding (s : State) (k p : Nat) : State :=
  ((s.rc k).out.filter (fun x => x.port == p)).foldl (fun s x => respondTo s k x.tag x.who p .abort false true) s

/-- DOWNEVT: the link leaves L0, L1 or L2/L3 Ready by itself, and the port is contained (R435). -/
def execDownevt (k : Fin 8) (p : Fin 4) (s : State) : Result :=
  doneRun s (
    let st := linkState s k p
    if ¬ (st = 2 ∨ st = 3 ∨ st = 4) ∨ (s.port k p).turnOff then s
    else
      let v := setFld (s.reg .rcPortstat k p 0) 0 12 0
      failOutstanding (s.setReg .rcPortstat k p 0 (setBit (setBit v 14 true) 15 true)) k p)

/-- PME_TO_ACK: the device answers PME_Turn_Off, and the link goes to L2/L3 Ready (R443). -/
def execPmeToAck (k : Fin 8) (p : Fin 4) (s : State) : Result :=
  doneRun s (
    if ¬ (s.port k p).turnOff then s
    else
      let v := setBit (s.reg .rcPortstat k p 0) 13 true
      s.setReg .rcPortstat k p 0 (if fld v 0 3 = 2 ∨ fld v 0 3 = 3 then setFld v 0 3 4 else v))

/-- PMETO_TIMEOUT: 10 ms after PMETO (R434, PMEACK). -/
def execPmetoTimeout (k : Fin 8) (p : Fin 4) (s : State) : Result :=
  doneRun s (if (s.port k p).turnOff then s.setRegF .rcPortstat k p 0 13 1 1 else s)

/-- Slot Status bits that a change of the expander's inputs sets: button, power fault, latch, presence. -/
def slotChanges (was now : BitVec 4) : W16 :=
  let b (i n : Nat) (when_ : Bool) : W16 := if when_ ∧ bitAt was i ≠ bitAt now i then 1#16 <<< n else 0
  b 1 0 (!bitAt now 1) ||| b 2 1 (!bitAt now 2) ||| b 3 2 true ||| b 0 3 true

/-- HOTPLUG_POLL: the expander's input pins, or no answer; three in a row make an empty slot without power (R434). -/
def execHotplugPoll (k : Fin 8) (p : Fin 4) (pins : Option (BitVec 8)) (s : State) : Result :=
  doneOr s (
    if ¬ bitAt (s.reg .rcPortctl k p 0) 7 ∨ ¬ portExists s k p ∨ ¬ s.rootClock then s
    else
      let x := s.port k p
      let apply (s : State) (now : BitVec 4) : State :=
        let s := s.setPort k p { s.port k p with inputs := now }
        let s := s.setRegF .rcPortstat k p 0 12 1 (b2n (!bitAt now 0))
        raiseSlot s k p (slotChanges x.inputs now)
      match pins with
      | some v => apply (s.setPort k p { x with misses := 0 }) (v.setWidth 4)
      | none =>
        let s := s.setPort k p { x with misses := min 3 (x.misses + 1) }
        if x.misses + 1 < 3 then s
        else apply (driveSlot (s.setRegF .rcPortctl k p 0 2 1 0) k p) 0xF)

/-- PERST_RELEASE: 100 ms after PWREN a pending release of PERST_N takes effect (R434). -/
def execPerstRelease (k : Fin 8) (p : Fin 4) (s : State) : Result :=
  doneRun s (
    let x := s.port k p
    if x.perstDue ∧ bitAt (s.reg .rcPortctl k p 0) 0 = false then s.setPort k p { x with perstDue := false, low := false } else s)

/-- IOINV_DONE: GO reads 0 (R445). -/
def execIoinvDone (b : Block) (s : State) : Result :=
  doneRun s (match b with
    | .rc k => s.setRegF .rcIoinv k 0 0 17 1 0
    | .oec k => s.setRegF .oecIoinv k 0 0 17 1 0
    | _ => s)

/-- SOWNINV_DONE: GO reads 0 (R447). -/
def execSowninvDone (k : Fin 8) (s : State) : Result := doneRun s (s.setRegF .rcSowninv k 0 0 17 1 0)

/-- KEYRDY: the keys requested are loaded (R449). -/
def execKeyrdy (k : Fin 8) (i : Fin 8) (s : State) : Result := doneRun s (keysLoaded s k i)

/-- ASPM_TRANSITION: between L0 and L1, and from L2/L3 Ready to L2 (R430, R434). -/
def execAspmTransition (k : Fin 8) (p : Fin 4) (link : BitVec 3) (s : State) : Result :=
  doneRun s (
    let st := linkState s k p
    let n := link.toNat
    if ((st = 2 ∨ st = 3) ∧ (n = 2 ∨ n = 3)) ∨ (st = 4 ∧ n = 5) then s.setRegF .rcPortstat k p 0 0 3 n else s)

end Sys2Proof.Machine
end

