-- ==== Sys2Proof/Machine/RegRows.lean ====
section
/-! DEFINITION. Commands that are accesses to on-chip registers (chapters 07 to 16), and the end of a stopped block's work (R260). -/

namespace Sys2Proof.Machine

/-! ## Accesses -/

/-- A write of a whole register reaches its block while the mesh has a clock. -/
def regPut (s : State) (i : RegId) (n k : Nat) (v : W64) (x : Attr) : Result :=
  doneOr s (if s.power.clocks then regWrite s (regAddr i n k 0) 8 v x else s)

/-- A read of a register, for what it changes. -/
def regGet (s : State) (pa len : Nat) (x : Attr) : Result :=
  doneOr s (if s.power.clocks then (regRead s pa len x).1 else s)

/-- REGISTER_WRITE: an aligned write in the region (R492). -/
def execRegisterWrite (addr : Pa) (wd : Width) (v : W64) (x : Attr) (s : State) : Result :=
  doneOr s (
    if s.power.clocks ∧ regionOf addr.toNat = .regs ∧ addr.toNat % widthBytes wd = 0 then regWrite s addr.toNat (widthBytes wd) v x
    else s)

/-! ## LLC (R241, R243, R248) -/

def execLlcLockWrite (n : Fin 97) (v : W64) (x : Attr) (s : State) : Result := regPut s .llcLock n 0 v x

def execWaymaskWrite (n : Fin 97) (k : Fin 16) (v : W64) (x : Attr) (s : State) : Result := regPut s .llcWaymask n k v x

def execEvcntRead (n : Fin 97) (x : Attr) (s : State) : Result := regGet s (regAddr .llcEvcnt n 0 0) 8 x

/-! ## Mesh, rings, windows (R261, R262, R288, R310) -/

def execMeshClockChange (slow : Bool) (x : Attr) (s : State) : Result := regPut s .meshClkcfg 132 0 (b2w slow) x

/-- The pointer register and first data register of a ring. -/
def ringRegs : Ring → (RegId × RegId × Nat)
  | .mc n => (.mcElogptr, .mcElogd, n)
  | .uncore => (.meshElogptr, .meshElogd, 132)

def execElogd0Read (r : Ring) (wd : Width) (x : Attr) (s : State) : Result :=
  regGet s (regAddr (ringRegs r).2.1 (ringRegs r).2.2 0 0) (widthBytes wd) x

def execElogptrRdWrite (r : Ring) (v : W64) (x : Attr) (s : State) : Result := regPut s (ringRegs r).1 (ringRegs r).2.2 0 v x

def execWindowWrite (w : Fin 13) (v : W64) (x : Attr) (s : State) : Result := regPut s .meshWin 132 w v x

def execMemregWrite (stop : Fin 132) (v : W64) (x : Attr) (s : State) : Result := regPut s .meshMemreg stop 0 v x

/-! ## RUN (R260) -/

def execRunClear (b : Block) (x : Attr) (s : State) : Result := regPut s (ctlOf b).1 (ctlOf b).2 0 0 x

def execRunSet (b : Block) (x : Attr) (s : State) : Result := regPut s (ctlOf b).1 (ctlOf b).2 0 1 x

/-- Work of a stopped block still in flight. -/
def inFlight (s : State) : Block → Bool
  | .oec k => !(jobs s k).isEmpty
  | .rc k => !(s.rc k).out.isEmpty
  | .irt => !s.irt.shown.isEmpty
  | _ => false

/-- BLOCK_QUIESCED: a controller first writes its queue (R275). -/
def execBlockQuiesced (b : Block) (s : State) : Result :=
  doneOr s (
    if ¬ s.power.clocks ∨ blockRuns s b ∨ inFlight s b then s
    else
      let s := match b with
        | .mc n => (List.range (s.mc n).wq.length).foldl (fun s _ => drainOne s n) s
        | _ => s
      setQuiesced s b)

/-! ## Remapping and device marks (R266, R296, R316) -/

def execVaultRemapWrite (n : Fin 96) (k : Fin 8) (v : W64) (x : Attr) (s : State) : Result := regPut s .vltRemap n k v x

def execBaddevWrite (n : Fin 16) (sub : Fin 2) (v : W64) (x : Attr) (s : State) : Result := regPut s .mcBaddev n sub v x

def execMcRemapWrite (n : Fin 16) (k : Fin 16) (v : W64) (x : Attr) (s : State) : Result := regPut s .mcRemap n k v x

/-! ## Interrupt router (R456, R462) -/

def execSwint (n : BitVec 12) (x : Attr) (s : State) : Result := regPut s .irtSwint 0 0 (n.setWidth 64) x

/-- RUN set, with PERIOD as it stands. -/
def execNwdStart (x : Attr) (s : State) : Result :=
  regPut s .irtNwdctl 0 0 (setFld 1 16 16 (s.regF .irtNwdctl 0 0 0 16 16)) x

def execNwdkick (v : W64) (x : Attr) (s : State) : Result := regPut s .irtNwdkick 0 0 v x

/-! ## Root complexes (R435, R442, R443, R445, R447, R449) -/

/-- A bit of PORTCTL written 1, its settings unchanged. -/
def portctlBit (s : State) (k p bit : Nat) : W64 := setBit (s.reg .rcPortctl k p 0) bit true

def execUncontain (k : Fin 8) (p : Fin 4) (x : Attr) (s : State) : Result := regPut s .rcPortctl k p (portctlBit s k p 6) x

def execPmeto (k : Fin 8) (p : Fin 4) (x : Attr) (s : State) : Result := regPut s .rcPortctl k p (portctlBit s k p 5) x

/-- SID and ALL with GO. -/
def invWord (sid : W16) (all : Bool) : W64 := setBit (setBit (sid.setWidth 64) 16 all) 17 true

def execIoinv (b : Block) (sid : W16) (all : Bool) (x : Attr) (s : State) : Result :=
  match b with
  | .rc k => regPut s .rcIoinv k 0 (invWord sid all) x
  | .oec k => regPut s .oecIoinv k 0 (invWord sid all) x
  | _ => done s

def execSowninv (k : Fin 8) (sid : W16) (all : Bool) (x : Attr) (s : State) : Result := regPut s .rcSowninv k 0 (invWord sid all) x

def execSresume (k : Fin 8) (sid : W16) (all : Bool) (x : Attr) (s : State) : Result :=
  regPut s .rcSresume k 0 (setBit (sid.setWidth 64) 16 all) x

/-- KEYREQ: that bit written 1, the stream's settings unchanged and INSECURE, which clears by 1, written 0 (R449). -/
def execKeyreq (k : Fin 8) (stream : Fin 8) (x : Attr) (s : State) : Result :=
  regPut s .rcIdectl k stream (setBit (setBit (s.reg .rcIdectl k stream 0) 12 true) 14 false) x

def execKeyoutRead (k : Fin 8) (stream : Fin 8) (x : Attr) (s : State) : Result := regGet s (regAddr .rcIdekeyout k stream 0) 8 x

/-! ## RC fields (R6) -/

/-- The register with an RC field. -/
def rcRegOf : RcReg → RegId × Nat × Nat
  | .mesh_deny n => (.meshDeny, n, 0)
  | .mesh_linkstat n d => (.meshLinkstat, n, d)
  | .own_denycnt => (.ownDenycnt, 0, 0)
  | .elogovf (.mc n) => (.mcElogovf, n, 0)
  | .elogovf .uncore => (.meshElogovf, 132, 0)
  | .vistat k v => (.oecVistat, k, v)
  | .lanestat k => (.oecLanestat, k, 0)
  | .shalt k => (.rcShalt, k, 0)
  | .iofltptr_rc k => (.rcIofltptr, k, 0)
  | .iofltptr_oec k => (.oecIofltptr, k, 0)
  | .irt_dbrej => (.irtDbrej, 0, 0)
  | .irt_vfail => (.irtVfail, 0, 0)
  | .lv_wakesrc => (.lvWakesrc, 0, 0)
  | .lv_rcnt r => (.lvRcnt, 0, r)

/-- Where an access of `len` bytes reads the first RC field of a register. -/
def rcOffset (i : RegId) (len : Nat) : Nat :=
  match (defOf i).bind (fun d => d.fields.find? (fun f => decide (f.acc = .rc))) with
  | some f => f.lo / 8 / len * len
  | none => 0

def execRcRead (r : RcReg) (wd : Width) (x : Attr) (s : State) : Result :=
  let (i, n, k) := rcRegOf r
  regGet s (regAddr i n k 0 + rcOffset i (widthBytes wd)) (widthBytes wd) x

/-! ## Worlds (R325, R342) -/

/-- RUN set, with PERIOD as it stands. -/
def execSwdStart (x : Attr) (s : State) : Result :=
  regPut s .ownSwdctl 0 0 (setFld 1 16 16 (s.regF .ownSwdctl 0 0 0 16 16)) x

def execSwdkick (v : W64) (x : Attr) (s : State) : Result := regPut s .ownSwdkick 0 0 v x

def execTlockWrite (x : Attr) (s : State) : Result := regPut s .ownTlock 0 0 1 x

/-! ## Louvre (R408, R424, R475, R480) -/

def execPreqWrite (c : CoreId) (level : BitVec 4) (x : Attr) (s : State) : Result := regPut s .lvPreq 0 c (level.setWidth 64) x

def execBlkpwrWrite (v : W64) (x : Attr) (s : State) : Result := regPut s .lvBlkpwr 0 0 v x

def execCorestartWrite (i : Fin 3) (v : W64) (x : Attr) (s : State) : Result := regPut s .lvCorestart 0 i v x

def execTilerst (tile : BitVec 7) (x : Attr) (s : State) : Result :=
  regPut s .lvTilerst 0 0 (setBit (tile.setWidth 64) 8 true) x

/-! ## Offload instances (R396, R398, R400) -/

/-- A write of VICTL: its requests beside ENABLE. -/
def victlPut (s : State) (k v bits : Nat) (x : Attr) : Result :=
  regPut s .oecVictl k v (setFld (BitVec.ofNat 64 bits) 1 1 (s.regF .oecVictl k v 0 1 1)) x

def execCreate (k : Fin 4) (v : Fin 256) (x : Attr) (s : State) : Result := victlPut s k v 1 x

def execVictlEnable (k : Fin 4) (v : Fin 256) (en : Bool) (x : Attr) (s : State) : Result :=
  regPut s .oecVictl k v (BitVec.ofNat 64 (2 * b2n en)) x

def execVictlReset (k : Fin 4) (v : Fin 256) (x : Attr) (s : State) : Result := victlPut s k v 4 x

def execDestroy (k : Fin 4) (v : Fin 256) (x : Attr) (s : State) : Result := victlPut s k v 8 x

/-- PORTAL_SUBMIT: an ST64 to a portal page. -/
def execPortalSubmit (k : Fin 4) (v : Fin 256) (offset : BitVec 12) (data : W512) (x : Attr) (s : State) : Result :=
  doneOr s (
    if s.power.clocks then
      regWrite64 s (0xF000004800000 + k.val * 0x1000000 + v.val * 0x1000 + offset.toNat) data x
    else s)

end Sys2Proof.Machine
end

