-- ==== Sys2Proof/Machine/Decimal.lean ====
section
/-! DEFINITION. Decimal arithmetic by IEEE 754-2019 on decimal64 and decimal128 in the binary-integer-decimal encoding
(R144, R159, R160). -/

namespace Sys2Proof.Machine

/-- A decimal format: digits, exponent field width, bias, largest exponent of the coefficient. -/
structure DFmt where
  p : Nat
  ew : Nat
  bias : Nat
  width : Nat
deriving DecidableEq, Repr

def dfmt (big : Bool) : DFmt := if big then ⟨34, 14, 6176, 128⟩ else ⟨16, 10, 398, 64⟩

def DFmt.qmin (f : DFmt) : Int := -(f.bias : Int)
/-- Largest exponent: 369 and 6111. -/
def DFmt.qmax (f : DFmt) : Int := 3 * 2 ^ (f.ew - 2) - 1 - (f.bias : Int)
/-- Bits of the short coefficient field: 53 and 113. -/
def DFmt.cw (f : DFmt) : Nat := f.width - 1 - f.ew

/-- A decimal value. -/
inductive DVal
  | nan (sig : Bool)
  | inf (s : Bool)
  | fin (s : Bool) (c : Nat) (e : Int)
deriving DecidableEq, Repr

/-- Reading an operand; a non-canonical coefficient is zero (R159). -/
def unpackDec (f : DFmt) (x : Nat) : DVal :=
  let x := x % 2 ^ f.width
  let s := x.testBit (f.width - 1)
  let top := (x / 2 ^ (f.width - 6)) % 32
  if top = 31 then .nan (x.testBit (f.width - 7))
  else if top = 30 then .inf s
  else
    let (c, ef) :=
      if top / 8 = 3 then (2 ^ f.cw + x % 2 ^ (f.cw - 2), (x / 2 ^ (f.cw - 2)) % 2 ^ f.ew)
      else (x % 2 ^ f.cw, (x / 2 ^ f.cw) % 2 ^ f.ew)
    .fin s (if c < 10 ^ f.p then c else 0) ((ef : Int) - f.bias)

def DFmt.sign (f : DFmt) (s : Bool) : Nat := if s then 2 ^ (f.width - 1) else 0

/-- The encoding of a finite value in range. -/
def packDec (f : DFmt) (s : Bool) (c : Nat) (e : Int) : Nat :=
  let ef := (e + f.bias).toNat
  if c < 2 ^ f.cw then f.sign s + ef * 2 ^ f.cw + c
  else f.sign s + 3 * 2 ^ (f.width - 3) + ef * 2 ^ (f.cw - 2) + (c - 2 ^ f.cw)

def decInf (f : DFmt) (s : Bool) : Nat := f.sign s + 30 * 2 ^ (f.width - 6)

/-- A canonical quiet NaN: sign and payload are free (DESIGN CHOICE, log 11). -/
def decNan (f : DFmt) (a b : Nat) : Nat :=
  let r := Config.nanBits (f.width + 1) a b
  f.sign (r.testBit 0) + 31 * 2 ^ (f.width - 6) + (r / 2) % 10 ^ (f.p - 1)

/-- Number of decimal digits, 0 for 0; `fuel` bounds it. -/
def digitsAux : Nat → Nat → Nat
  | 0, _ => 0
  | k + 1, n => if n = 0 then 0 else 1 + digitsAux k (n / 10)

def digits (n : Nat) : Nat := digitsAux (Nat.log2 n + 1) n

/-- A coefficient with trailing zeros removed while the exponent is below `pref`. -/
def towardUp : Nat → Nat → Int → Int → Nat × Int
  | 0, c, e, _ => (c, e)
  | k + 1, c, e, pref => if e < pref ∧ c % 10 = 0 ∧ c ≠ 0 then towardUp k (c / 10) (e + 1) pref else (c, e)

/-- A coefficient padded with zeros while the exponent is above `pref` and digits remain. -/
def towardDown (p : Nat) : Nat → Nat → Int → Int → Nat × Int
  | 0, c, e, _ => (c, e)
  | k + 1, c, e, pref => if e > pref ∧ c * 10 < 10 ^ p then towardDown p k (c * 10) (e - 1) pref else (c, e)

def clampInt (lo hi v : Int) : Int := max lo (min hi v)

/-- An exact value (with something below its last digit if `sticky`) rounded into a format, with the exponent nearest to `pref`
where it is exact (R159). Tininess of decimal formats is detected before rounding (IEEE 754-2019 7.5). -/
def roundDec (f : DFmt) (rm : Nat) (s : Bool) (c : Nat) (e : Int) (sticky : Bool) (pref : Int) : Nat × Conds :=
  if c = 0 ∧ ¬ sticky then (packDec f s 0 (clampInt f.qmin f.qmax pref), cNone)
  else
    let d := digits c
    let k := max (d - f.p) (f.qmin - e).toNat
    let full := 10 ^ k
    let kept := c / full
    let r := c % full
    let exact := r == 0 && !sticky
    let cmp := if k = 0 then Ordering.lt else halfCmp r full sticky
    let kept := if exact then kept else kept + b2n (roundsUp rm s (kept % 2 == 1) cmp)
    let (kept, e') := if kept = 10 ^ f.p then (kept / 10, e + (k : Int) + 1) else (kept, e + (k : Int))
    let tiny := decide ((d : Int) + e - 1 < f.qmin + f.p - 1)
    let (kept, e') :=
      if exact then
        let (a, b) := towardUp (f.p + 2) kept e' pref
        towardDown f.p (f.p + 2) a b (max pref f.qmin)
      else (kept, e')
    let (kept, e') := towardDown f.p (f.p + 2) kept e' (min e' f.qmax)
    if e' > f.qmax then
      let toInf := match rm with | 1 => false | 2 => s | 3 => !s | _ => true
      (if toInf then decInf f s else packDec f s (10 ^ f.p - 1) f.qmax, cOverflow ||| cInexact)
    else
      (packDec f s kept e',
        (if exact then cNone else cInexact) ||| (if tiny then (if exact then cTiny else cUnderflow) else cNone))

def dIsSig : DVal → Bool
  | .nan s => s
  | _ => false

def dIsNan : DVal → Bool
  | .nan _ => true
  | _ => false

def dSig (l : List DVal) : Conds := if l.any dIsSig then cInvalid else cNone

def dNeg : DVal → DVal
  | .nan s => .nan s
  | .inf s => .inf (!s)
  | .fin s c e => .fin (!s) c e

/-- The exact sum of two finite decimals at the smaller exponent. -/
def dSumExact (s1 : Bool) (c1 : Nat) (e1 : Int) (s2 : Bool) (c2 : Nat) (e2 : Int) : Int × Int :=
  let e := min e1 e2
  let a : Int := (c1 : Int) * 10 ^ (e1 - e).toNat
  let b : Int := (c2 : Int) * 10 ^ (e2 - e).toNat
  ((if s1 then -a else a) + (if s2 then -b else b), e)

def dAddV (f : DFmt) (rm a b : Nat) (x y : DVal) : Nat × Conds :=
  match x, y with
  | .nan _, _ | _, .nan _ => (decNan f a b, dSig [x, y])
  | .inf s, .inf t => if s = t then (decInf f s, cNone) else (decNan f a b, cInvalid)
  | .inf s, _ => (decInf f s, cNone)
  | _, .inf t => (decInf f t, cNone)
  | .fin s1 c1 e1, .fin s2 c2 e2 =>
    let (v, e) := dSumExact s1 c1 e1 s2 c2 e2
    let s := if v = 0 then (if s1 = s2 then s1 else zeroSign rm) else decide (v < 0)
    roundDec f rm s v.natAbs e false (min e1 e2)

def decAdd (f : DFmt) (rm a b : Nat) : Nat × Conds := dAddV f rm a b (unpackDec f a) (unpackDec f b)
def decSub (f : DFmt) (rm a b : Nat) : Nat × Conds := dAddV f rm a b (unpackDec f a) (dNeg (unpackDec f b))

def decMul (f : DFmt) (rm a b : Nat) : Nat × Conds :=
  let x := unpackDec f a
  let y := unpackDec f b
  match x, y with
  | .nan _, _ | _, .nan _ => (decNan f a b, dSig [x, y])
  | .inf s, .inf t => (decInf f (s != t), cNone)
  | .inf s, .fin t c _ | .fin t c _, .inf s => if c = 0 then (decNan f a b, cInvalid) else (decInf f (s != t), cNone)
  | .fin s c e, .fin t d g => roundDec f rm (s != t) (c * d) (e + g) false (e + g)

def decDiv (f : DFmt) (rm a b : Nat) : Nat × Conds :=
  let x := unpackDec f a
  let y := unpackDec f b
  match x, y with
  | .nan _, _ | _, .nan _ => (decNan f a b, dSig [x, y])
  | .inf _, .inf _ => (decNan f a b, cInvalid)
  | .inf s, .fin t _ _ => (decInf f (s != t), cNone)
  | .fin s _ _, .inf t => (packDec f (s != t) 0 f.qmin, cNone)
  | .fin s c e, .fin t d g =>
    if d = 0 then (if c = 0 then (decNan f a b, cInvalid) else (decInf f (s != t), cDivZero))
    else if c = 0 then roundDec f rm (s != t) 0 0 false (e - g)
    else
      let k := f.p + 3 + digits d - digits c
      let num := c * 10 ^ k
      roundDec f rm (s != t) (num / d) (e - g - k) (num % d != 0) (e - g)

/-- va x vb + vd, rounded once (R144). -/
def decFma (f : DFmt) (rm a b c : Nat) : Nat × Conds :=
  let x := unpackDec f a
  let y := unpackDec f b
  let z := unpackDec f c
  let bad := match x, y with
    | .inf _, .fin _ m _ | .fin _ m _, .inf _ => m == 0
    | _, _ => false
  match x, y, z with
  | .nan _, _, _ | _, .nan _, _ => (decNan f a b, dSig [x, y, z])
  | _, _, .nan _ => (decNan f a b, dSig [z] ||| (if bad && Config.fmaInvalid then cInvalid else cNone))
  | .inf s, .inf t, _ => if bad then (decNan f a b, cInvalid) else dAddV f rm a b (.inf (s != t)) z
  | .inf s, .fin t _ _, _ => if bad then (decNan f a b, cInvalid) else dAddV f rm a b (.inf (s != t)) z
  | .fin s _ _, .inf t, _ => if bad then (decNan f a b, cInvalid) else dAddV f rm a b (.inf (s != t)) z
  | .fin s m e, .fin t n g, _ => dAddV f rm a b (.fin (s != t) (m * n) (e + g)) z

/-- quantize (R144): va at the exponent of vb. -/
def decQuant (f : DFmt) (rm a b : Nat) : Nat × Conds :=
  let x := unpackDec f a
  let y := unpackDec f b
  match x, y with
  | .nan _, _ | _, .nan _ => (decNan f a b, dSig [x, y])
  | .inf s, .inf _ => (decInf f s, cNone)
  | .inf _, _ | _, .inf _ => (decNan f a b, cInvalid)
  | .fin s c e, .fin _ _ q =>
    if e ≥ q then
      let v := c * 10 ^ (e - q).toNat
      if v < 10 ^ f.p then (packDec f s v q, cNone) else (decNan f a b, cInvalid)
    else
      let full := 10 ^ (q - e).toNat
      let kept := c / full
      let r := c % full
      let v := if r = 0 then kept else kept + b2n (roundsUp rm s (kept % 2 == 1) (halfCmp r full false))
      if v < 10 ^ f.p then (packDec f s v q, if r = 0 then cNone else cInexact) else (decNan f a b, cInvalid)

/-- A finite decimal rounded to an integer. -/
def dRoundInt (rm : Nat) (s : Bool) (c : Nat) (e : Int) : Nat × Bool :=
  if e ≥ 0 then (c * 10 ^ e.toNat, false)
  else
    let full := 10 ^ (-e).toNat
    let kept := c / full
    let r := c % full
    if r = 0 then (kept, false) else (kept + b2n (roundsUp rm s (kept % 2 == 1) (halfCmp r full false)), true)

/-- Rounding to an integral value (R144, DRINT): roundToIntegralExact. -/
def decRint (f : DFmt) (rm a : Nat) : Nat × Conds :=
  let x := unpackDec f a
  match x with
  | .nan _ => (decNan f a 0, dSig [x])
  | .inf s => (decInf f s, cNone)
  | .fin s c e =>
    if e ≥ 0 then (packDec f s c e, cNone)
    else
      let (v, nx) := dRoundInt rm s c e
      (packDec f s v 0, if nx then cInexact else cNone)

def dCmp : DVal → DVal → Ordering
  | .inf s, .inf t => if s = t then .eq else if s then .lt else .gt
  | .inf s, _ => if s then .lt else .gt
  | _, .inf t => if t then .gt else .lt
  | .fin s m e, .fin t n g => compare (dSumExact s m e (!t) n g).1 0
  | _, _ => .eq

/-- The canonical encoding of a value that is not a NaN. -/
def dCanon (f : DFmt) : DVal → Nat
  | .fin s c e => packDec f s c e
  | .inf s => decInf f s
  | .nan _ => 0

def dSignOf : DVal → Bool
  | .fin s _ _ => s
  | .inf s => s
  | .nan _ => false

/-- minimumNumber and maximumNumber (R144). -/
def decMinMax (f : DFmt) (hi : Bool) (a b : Nat) : Nat × Conds :=
  let x := unpackDec f a
  let y := unpackDec f b
  let c := dSig [x, y]
  if dIsNan x then (if dIsNan y then (decNan f a b, c) else (dCanon f y, c))
  else if dIsNan y then (dCanon f x, c)
  else
    let less := match dCmp x y with
      | .lt => true
      | .gt => false
      | .eq =>
        if dSignOf x = dSignOf y then Config.cohortFirst (BitVec.ofNat 128 a) (BitVec.ofNat 128 b) else dSignOf x
    (dCanon f (if less = hi then y else x), c)

/-- From a signed 64-bit integer (R144): preferred exponent 0. -/
def decFromInt (f : DFmt) (rm a : Nat) : Nat × Conds :=
  let v : Int := (BitVec.ofNat 64 a).toInt
  roundDec f rm (decide (v < 0)) v.natAbs 0 false 0

/-- To a signed 64-bit integer (R144); the integer of an invalid conversion is free (DESIGN CHOICE, log 11), and one that
is not exact raises inexact (DESIGN CHOICE, log 117). -/
def decToInt64 (f : DFmt) (rm a : Nat) : Nat × Conds :=
  let bad : Nat × Conds := ((Config.decToInt (BitVec.ofNat 128 a)).toNat, cInvalid)
  match unpackDec f a with
  | .nan _ | .inf _ => bad
  | .fin s c e =>
    let (m, nx) := dRoundInt rm s c e
    let v : Int := if s then -(m : Int) else m
    if v < -(2 ^ 63) ∨ v > 2 ^ 63 - 1 then bad else ((v % 2 ^ 64).toNat, if nx then cInexact else cNone)

/-- Relations: 0 equal, 1 less, 2 less or equal (R144, R143). -/
def decRel (f : DFmt) (r a b : Nat) : Bool × Conds :=
  let x := unpackDec f a
  let y := unpackDec f b
  let un := dIsNan x || dIsNan y
  let c := if r = 0 then dSig [x, y] else if un then cInvalid else cNone
  let o := dCmp x y
  (match r with
   | 0 => !un && o == .eq
   | 1 => !un && o == .lt
   | _ => !un && o != .gt, c)

end Sys2Proof.Machine
end

