-- ==== Sys2Proof/Machine/VecBase.lean ====
section
/-! DEFINITION. What every vector instruction shares (R125-R137, R155-R157): configuration captured, elements of groups, the classes
of elements, the queue, completing, stopping and trapping. -/

namespace Sys2Proof.Machine

/-- What a vector instruction captures (R133): element width, registers per group, VLMAX, VL (R130), starting element, policies,
and the two environments. -/
structure VCtx where
  sew : Nat
  g : Nat
  vlmax : Nat
  vl : Nat
  elem : Nat
  tail : Bool
  inact : Bool
  alt : Bool
deriving DecidableEq, Repr

def vctx (s : State) (c : Nat) : VCtx :=
  let k := s.core c
  let cfg := k.crEff 4
  { sew := 8 * 2 ^ fld cfg 0 2, g := 2 ^ fld cfg 2 2, vlmax := vlmaxOf cfg,
    vl := min (fld (k.crEff 5) 0 10) (vlmaxOf cfg), elem := fld (k.crEff 6) 0 10,
    tail := bitAt cfg 4, inact := bitAt cfg 5, alt := bitAt cfg 6 }

/-! ## Elements (R128) -/

/-- Element `i`, `w` bits wide, of the group at register `b`. -/
def Core.velem (k : Core) (w b i : Nat) : Nat :=
  let e := 512 / w
  ((k.vr (b + i / e)).toNat >>> (i % e * w)) % 2 ^ w

def Core.wvelem (k : Core) (w b i v : Nat) : Core :=
  let e := 512 / w
  k.wv (b + i / e) (setFld (k.vr (b + i / e)) (i % e * w) w v)

/-- The mask bit that governs element `i` (R130). -/
def Core.selects (k : Core) (m : Bool) (msk : BitVec 3) (i : Nat) : Bool := !m || bitAt (k.mr msk) i

/-- Elements `lo` to `hi - 1`. -/
def span (lo hi : Nat) : List Nat := (List.range hi).filter (fun i => lo ≤ i)

/-- Elements `lo` to `hi - 1` of a destination group of `count` elements written by class (R130): `val` gives the active ones. -/
def Core.writeElems (k : Core) (x : VCtx) (w b lo hi vl : Nat) (act : Nat → Bool) (val : Nat → Nat) : Core :=
  (span lo hi).foldl (fun k i =>
    if i < vl then
      if act i then k.wvelem w b i (val i) else if x.inact then k.wvelem w b i 0 else k
    else if x.tail then k.wvelem w b i 0 else k) k

/-- Bits `lo` to `hi - 1` of a destination mask register written by class (R131). -/
def Core.writeMask (k : Core) (x : VCtx) (md : BitVec 3) (lo hi vl : Nat) (act val : Nat → Bool) : Core :=
  k.wm md ((span lo hi).foldl (fun (m : W512) i =>
    if i < vl then
      if act i then setBit m i (val i) else if x.inact then setBit m i false else m
    else if x.tail then setBit m i false else m) (k.mr md))

/-- Registers of a group. -/
def groupRegs (b n : Nat) : List Nat := (List.range n).map (· + b)

/-- A vector instruction with G of 4 or 8 enters the queue (R412). -/
def wideMark (s : State) (c g : Nat) : State := if 4 ≤ g then s.onCore c (fun k => { k with wide := true }) else s

/-! ## Control registers that vector instructions write -/

/-- A hardware write of a control register that later instructions see at once: writes of it still pending are superseded
(R127, R154, R155). -/
def Core.crNow (k : Core) (key : Nat) (v : W64) : Core :=
  { k.crPut key v with pendD := k.pendD.filter (fun p => p.num != key) }

def Core.setElem (k : Core) (n : Nat) : Core := k.crNow 6 (BitVec.ofNat 64 n)

/-! ## Completing, stopping, trapping -/

/-- A vector instruction completes: ELEM is 0 (R155), and it retires. -/
def vecDone (s : State) (c : Nat) : State := ((s.onCore c (fun k => k.setElem 0)).event c 0x007 1).retire c

/-- A released one also enters the queue (R134). -/
def vecReleased (s : State) (c g : Nat) (vs ms : List Nat) : State :=
  vecDone (s.onCore c (fun k => k.vqPush ⟨vs, ms, 4 ≤ g⟩)) c

/-- An interrupt stops a held instruction at element `n` (R156): it does not retire. -/
def vecStopped (s : State) (c n : Nat) : State := s.onCore c (fun k => { k.setElem n with vecStop := true })

/-- A synchronous cause stops it at element `n` (R156). -/
def vecFault (s : State) (c n : Nat) (e : Exc) : State := (s.onCore c (fun k => k.setElem n)).except c { e with vec := true }

/-- The element at which an interrupt that is ready stops a held instruction. -/
def stopAt (s : State) (c : Nat) (held : Bool) (stop : Option Nat) : Option Nat :=
  if held ∧ interruptReady s c then stop else none

/-- How far elements were computed: results by element, conditions of the completed ones, and the trap that stopped it. -/
structure Run1 where
  vals : Tab Nat
  conds : Conds
  trap : Option (Nat × Conds)
deriving DecidableEq, Repr

/-- Elements computed in ascending order until one traps (R56, R156). -/
def computeElems (te : BitVec 5) (act : Nat → Bool) (f : Nat → Nat × Conds) : List Nat → Run1 → Run1
  | [], r => r
  | i :: t, r =>
    if ¬ act i then computeElems te act f t r
    else
      let (v, cd) := f i
      if trapped cd te then { r with trap := some (i, cd) }
      else computeElems te act f t { r with vals := r.vals ++ [(i, v)], conds := r.conds ||| cd }

/-- An element-wise instruction (R130, R134, R155, R156): `count` elements of `w` bits; `mask` selects a mask destination; `env`
names the environment of its conditions. -/
def elementwise (s : State) (c : Nat) (x : VCtx) (f : VF) (w count : Nat) (mask : Bool) (env : Option Nat) (allActive : Bool)
    (val : Core → Nat → Nat × Conds) : State :=
  let k := s.core c
  let te := env.elim 0 (envTe k)
  let held := te != 0
  let s := wideMark s c x.g
  if x.vl = 0 then vecDone s c
  else
    let act (i : Nat) : Bool := allActive || k.selects f.m f.msk i
    let hi := match stopAt s c held f.stop with
      | some n => min x.vl (max n x.elem)
      | none => x.vl
    let r := computeElems te act (val k) (span x.elem hi) ⟨[], 0, none⟩
    let upto := match r.trap with
      | some (n, _) => n
      | none => if hi < x.vl then hi else (if mask then 512 else count)
    let put (k : Core) : Core :=
      let k := match env with
        | some key => k.setFlags key r.conds
        | none => k
      if mask then k.writeMask x (f.vd.setWidth 3) x.elem upto x.vl act (fun i => lookD 0 r.vals i != 0)
      else k.writeElems x w f.vd.toNat x.elem upto x.vl act (lookD 0 r.vals)
    let s := s.onCore c put
    match r.trap with
    | some (n, cd) => vecFault s c n (trapExc (env.getD fenvKey) cd true)
    | none =>
      if hi < x.vl then vecStopped s c hi
      else if held then vecDone s c
      else vecReleased s c x.g (if mask then [] else groupRegs f.vd.toNat x.g) (if mask then [f.vd.toNat % 8] else [])

/-- An indivisible instruction that writes a group (R157): every element from 0, or nothing. -/
def indivisible (s : State) (c : Nat) (x : VCtx) (f : VF) (w : Nat) (held : Bool) (act : Nat → Bool) (val : Core → Nat → Nat) : State :=
  let s := wideMark s c x.g
  if x.vl = 0 then vecDone s c
  else
    let s := s.onCore c (fun q => q.writeElems x w f.vd.toNat 0 x.vlmax x.vl act (val q))
    if held then vecDone s c else vecReleased s c x.g (groupRegs f.vd.toNat x.g) []

/-- A held indivisible instruction that writes a general register (R134, R157). -/
def vecToGpr (s : State) (c : Nat) (x : VCtx) (rd : RegNo) (stop : Option Nat) (v : W64) : State :=
  let s := wideMark s c x.g
  if (stopAt s c true stop).isSome then vecStopped s c 0
  else vecDone (s.onCore c (fun k => k.wg rd v)) c

/-- A vector instruction after the checks of R124 on its encoding: the queue drains as far as it depends on it (R135), an operand
that R129 forbids raises ILLEGAL. -/
def vecInstr (s : State) (c : Nat) (i : Instr) (vs ms : List Nat) (ok : VCtx → Bool) (body : State → VCtx → State) : Result :=
  done (runInstr s c i (fun s =>
    let s := s.onCore c (fun k => k.vqWait vs ms)
    let x := vctx s c
    if ok x then body s x else s.except c (illegalExc (wordOf i))))

/-- Group fields hold multiples of G (R129). -/
def VCtx.groups (x : VCtx) (l : List RegNo) : Bool := l.all (fun r => r.toNat % x.g == 0)

/-- Registers an instruction may depend on: the groups its fields can name. -/
def regsOf (l : List RegNo) : List Nat := (l.map (fun r => groupRegs r.toNat 8)).flatten

end Sys2Proof.Machine
end

