-- ==== Sys2Proof/Machine/VecFp.lean ====
section
/-! DEFINITION. Vector floating-point and decimal instructions and floating-point reductions (R132, R141, R143, R144, R159, R160). -/

namespace Sys2Proof.Machine

/-- The floating-point type of an element width; none at SEW 8 (R132). -/
def VCtx.fmt (x : VCtx) : Option Fmt :=
  match x.sew with
  | 16 => some (fmtOf (if x.alt then .bf16 else .fp16))
  | 32 => some (fmtOf .fp32)
  | 64 => some (fmtOf .fp64)
  | _ => none

/-- The functions of Table 6 by number, on va, vb and vd, with integers of `w` bits. -/
def fpFn (fn : Nat) (t : Fmt) (rm w a b d : Nat) : Nat × Conds :=
  match fn with
  | 0 => fpAdd t rm a b
  | 1 => fpSub t rm a b
  | 2 => fpMul t rm a b
  | 3 => fpDiv t rm a b
  | 4 => fpSqrt t rm a
  | 5 => fpMinMax t false a b
  | 6 => fpMinMax t true a b
  | 7 | 8 | 9 => (fpSign t (fn - 7) a b, cNone)
  | 10 => fpFma t rm a b d false false
  | 11 => fpFma t rm a b d false true
  | 12 => fpFma t rm a b d true false
  | 13 => fpToInt t rm w true a
  | 14 => fpFromInt t rm w true a
  | 15 => fpToInt t rm w false a
  | _ => fpFromInt t rm w false a

/-- Group fields of a vector floating-point or decimal instruction (R129). The vb field of a VFCVT, which has one operand and for which
Table 6 states no zero, takes any multiple of G and names nothing (DESIGN CHOICE, log 86); and so does that of DCVT.I.D, for which
Table 7 states none (DESIGN CHOICE, log 116). -/
def vfGroups (x : VCtx) (f : VF) (dest : Bool) : Bool :=
  x.groups ((if dest then [f.vd] else []) ++ [f.va] ++ (if f.sc then [] else [f.vb]))

/-- The second operand: vb, or the low element-width bits of fb (R143). -/
def vfB (k : Core) (x : VCtx) (f : VF) (i : Nat) : Nat :=
  if f.sc then (k.fr f.vb).toNat % 2 ^ x.sew else k.velem x.sew f.vb.toNat i

/-- A floating-point function of elements. -/
def vfp (s : State) (c : Nat) (i : Instr) (f : VF) (fn : Nat) : Result :=
  vecInstr s c i (regsOf [f.vd, f.va, f.vb]) [f.msk.toNat] (fun x => x.fmt.isSome && vfGroups x f true) (fun s x =>
    let rm := envRm (s.core c) fenvKey
    let t := x.fmt.getD (fmtOf .fp64)
    elementwise s c x f x.sew x.vlmax false (some fenvKey) false (fun k i =>
      fpFn fn t rm x.sew (k.velem x.sew f.va.toNat i) (vfB k x f i) (k.velem x.sew f.vd.toNat i)))

/-- A floating-point compare: a mask register. -/
def vfpCmp (s : State) (c : Nat) (i : Instr) (f : VF) (r : Nat) : Result :=
  vecInstr s c i (regsOf [f.va, f.vb]) [f.msk.toNat, f.vd.toNat] (fun x => x.fmt.isSome && vfGroups x f false) (fun s x =>
    let t := x.fmt.getD (fmtOf .fp64)
    elementwise s c x f x.sew x.vlmax true (some fenvKey) false (fun k i =>
      let (b, cd) := fpRel t r (k.velem x.sew f.va.toNat i) (vfB k x f i)
      (b2n b, cd)))

/-- A floating-point reduction in ascending order (R141): indivisible, held while a trap is enabled. Conditions of the elements
below a trapped one reach FLAGS (R156); an interrupt leaves FLAGS alone, since the reduction begins again at element 0 (DESIGN
CHOICE, log 88). -/
def vredFp (s : State) (c : Nat) (i : Instr) (f : VF) (op : Fmt → Nat → Nat → Nat → Nat × Conds) : Result :=
  vecInstr s c i (regsOf [f.vd, f.va, f.vb]) [f.msk.toNat] (fun x => x.fmt.isSome && x.groups [f.vd, f.va, f.vb]) (fun s x =>
    let k := s.core c
    let rm := envRm k fenvKey
    let te := envTe k fenvKey
    let t := x.fmt.getD (fmtOf .fp64)
    let l := (List.range x.vl).filter (k.selects f.m f.msk)
    let r := l.foldl (fun (acc : Nat × Conds × Option (Nat × Conds)) i =>
      match acc.2.2 with
      | some _ => acc
      | none =>
        let (v, cd) := op t rm acc.1 (k.velem x.sew f.va.toNat i)
        if trapped cd te then (acc.1, acc.2.1, some (i, cd)) else (v, acc.2.1 ||| cd, none))
      (k.velem x.sew f.vb.toNat 0, 0, none)
    if x.vl ≠ 0 ∧ (stopAt s c (te != 0) f.stop).isSome then vecStopped (wideMark s c x.g) c 0
    else
      let s := s.onCore c (fun k => k.setFlags fenvKey r.2.1)
      match r.2.2 with
      | some (_, cd) => vecFault (wideMark s c x.g) c 0 (trapExc fenvKey cd true)
      | none => indivisible s c { x with vl := min x.vl 1 } f x.sew (te != 0) (fun _ => true) (fun _ _ => r.1))

/-! ## Decimal -/

/-- The functions of Table 7 by number, on va, vb and vd. -/
def decFn (fn : Nat) (t : DFmt) (rm a b d : Nat) : Nat × Conds :=
  match fn with
  | 0 => decAdd t rm a b
  | 1 => decSub t rm a b
  | 2 => decMul t rm a b
  | 3 => decDiv t rm a b
  | 4 => decFma t rm a b d
  | 5 => decQuant t rm a b
  | 6 => decRint t rm a
  | 7 => decMinMax t false a b
  | 8 => decMinMax t true a b
  | 9 => decFromInt t rm (b % 2 ^ 64)
  | _ => decToInt64 t rm a

/-- What a vector decimal instruction needs: SEW 64 (R132), multiples of G, and VL at most VLMAX / 2 for decimal128 (R160). -/
def decOk (x : VCtx) (big dest : Bool) (f : VF) : Bool :=
  x.sew == 64 && vfGroups x f dest && (!big || x.vl ≤ x.vlmax / 2)

/-- A decimal function of elements (R144): decimal128 elements occupy two slots (R160); the source of DCVT.D.I is read at its own width,
64 bits (R128). -/
def vdec (s : State) (c : Nat) (i : Instr) (big : Bool) (f : VF) (fn : Nat) : Result :=
  vecInstr s c i (regsOf [f.vd, f.va, f.vb]) [f.msk.toNat] (fun x => decOk x big true f) (fun s x =>
    let rm := envRm (s.core c) drmKey
    let w := if big then 128 else 64
    elementwise s c x f w (if big then x.vlmax / 2 else x.vlmax) false (some drmKey) false (fun k i =>
      decFn fn (dfmt big) rm (k.velem w f.va.toNat i) (k.velem (if fn = 9 then 64 else w) f.vb.toNat i) (k.velem w f.vd.toNat i)))

/-- A decimal compare: a mask register. -/
def vdecCmp (s : State) (c : Nat) (i : Instr) (big : Bool) (f : VF) (r : Nat) : Result :=
  vecInstr s c i (regsOf [f.va, f.vb]) [f.msk.toNat, f.vd.toNat] (fun x => decOk x big false f) (fun s x =>
    let w := if big then 128 else 64
    elementwise s c x f w x.vlmax true (some drmKey) false (fun k i =>
      let (b, cd) := decRel (dfmt big) r (k.velem w f.va.toNat i) (k.velem w f.vb.toNat i)
      (b2n b, cd)))

/-- VFADD (R143, Table 6). -/
def execVfadd (c : CoreId) (f : VF) (s : State) : Result :=
  vfp s c (.vfadd c f) f 0

/-- VFSUB (R143, Table 6). -/
def execVfsub (c : CoreId) (f : VF) (s : State) : Result :=
  vfp s c (.vfsub c f) f 1

/-- VFMUL (R143, Table 6). -/
def execVfmul (c : CoreId) (f : VF) (s : State) : Result :=
  vfp s c (.vfmul c f) f 2

/-- VFDIV (R143, Table 6). -/
def execVfdiv (c : CoreId) (f : VF) (s : State) : Result :=
  vfp s c (.vfdiv c f) f 3

/-- VFSQRT (R143, Table 6). -/
def execVfsqrt (c : CoreId) (f : VF) (s : State) : Result :=
  vfp s c (.vfsqrt c f) f 4

/-- VFMIN (R143, Table 6). -/
def execVfmin (c : CoreId) (f : VF) (s : State) : Result :=
  vfp s c (.vfmin c f) f 5

/-- VFMAX (R143, Table 6). -/
def execVfmax (c : CoreId) (f : VF) (s : State) : Result :=
  vfp s c (.vfmax c f) f 6

/-- VFSIGN (R143, Table 6). -/
def execVfsign (c : CoreId) (f : VF) (s : State) : Result :=
  vfp s c (.vfsign c f) f 7

/-- VFSIGN.N (R143, Table 6). -/
def execVfsignN (c : CoreId) (f : VF) (s : State) : Result :=
  vfp s c (.vfsignN c f) f 8

/-- VFSIGN.X (R143, Table 6). -/
def execVfsignX (c : CoreId) (f : VF) (s : State) : Result :=
  vfp s c (.vfsignX c f) f 9

/-- VFMADD (R143, Table 6). -/
def execVfmadd (c : CoreId) (f : VF) (s : State) : Result :=
  vfp s c (.vfmadd c f) f 10

/-- VFMSUB (R143, Table 6). -/
def execVfmsub (c : CoreId) (f : VF) (s : State) : Result :=
  vfp s c (.vfmsub c f) f 11

/-- VFNMSUB (R143, Table 6). -/
def execVfnmsub (c : CoreId) (f : VF) (s : State) : Result :=
  vfp s c (.vfnmsub c f) f 12

/-- VFCVT.X.F (R143, Table 6). -/
def execVfcvtXF (c : CoreId) (f : VF) (s : State) : Result :=
  vfp s c (.vfcvtXF c f) f 13

/-- VFCVT.F.X (R143, Table 6). -/
def execVfcvtFX (c : CoreId) (f : VF) (s : State) : Result :=
  vfp s c (.vfcvtFX c f) f 14

/-- VFCVT.XU.F (R143, Table 6). -/
def execVfcvtXuF (c : CoreId) (f : VF) (s : State) : Result :=
  vfp s c (.vfcvtXuF c f) f 15

/-- VFCVT.F.XU (R143, Table 6). -/
def execVfcvtFXu (c : CoreId) (f : VF) (s : State) : Result :=
  vfp s c (.vfcvtFXu c f) f 16

/-- VFEQ (R143, R131). -/
def execVfeq (c : CoreId) (f : VF) (s : State) : Result :=
  vfpCmp s c (.vfeq c f) f 0

/-- VFLT (R143, R131). -/
def execVflt (c : CoreId) (f : VF) (s : State) : Result :=
  vfpCmp s c (.vflt c f) f 1

/-- VFLE (R143, R131). -/
def execVfle (c : CoreId) (f : VF) (s : State) : Result :=
  vfpCmp s c (.vfle c f) f 2

/-- VFUNORD (R143, R131). -/
def execVfunord (c : CoreId) (f : VF) (s : State) : Result :=
  vfpCmp s c (.vfunord c f) f 3

/-- VFRED.OADD: in ascending order, rounding after each addition (R141). -/
def execVfredOadd (c : CoreId) (f : VF) (s : State) : Result :=
  vredFp s c (.vfredOadd c f) f (fun t rm a b => fpAdd t rm a b)

/-- VFRED.MIN (R141). -/
def execVfredMin (c : CoreId) (f : VF) (s : State) : Result :=
  vredFp s c (.vfredMin c f) f (fun t _ a b => fpMinMax t false a b)

/-- VFRED.MAX (R141). -/
def execVfredMax (c : CoreId) (f : VF) (s : State) : Result :=
  vredFp s c (.vfredMax c f) f (fun t _ a b => fpMinMax t true a b)

/-- DADD (R144, R159, R160). -/
def execDadd (c : CoreId) (big : Bool) (f : VF) (s : State) : Result :=
  vdec s c (.dadd c big f) big f 0

/-- DSUB (R144, R159, R160). -/
def execDsub (c : CoreId) (big : Bool) (f : VF) (s : State) : Result :=
  vdec s c (.dsub c big f) big f 1

/-- DMUL (R144, R159, R160). -/
def execDmul (c : CoreId) (big : Bool) (f : VF) (s : State) : Result :=
  vdec s c (.dmul c big f) big f 2

/-- DDIV (R144, R159, R160). -/
def execDdiv (c : CoreId) (big : Bool) (f : VF) (s : State) : Result :=
  vdec s c (.ddiv c big f) big f 3

/-- DFMA (R144, R159, R160). -/
def execDfma (c : CoreId) (big : Bool) (f : VF) (s : State) : Result :=
  vdec s c (.dfma c big f) big f 4

/-- DQUANT (R144, R159, R160). -/
def execDquant (c : CoreId) (big : Bool) (f : VF) (s : State) : Result :=
  vdec s c (.dquant c big f) big f 5

/-- DRINT (R144, R159, R160). -/
def execDrint (c : CoreId) (big : Bool) (f : VF) (s : State) : Result :=
  vdec s c (.drint c big f) big f 6

/-- DMIN (R144, R159, R160). -/
def execDmin (c : CoreId) (big : Bool) (f : VF) (s : State) : Result :=
  vdec s c (.dmin c big f) big f 7

/-- DMAX (R144, R159, R160). -/
def execDmax (c : CoreId) (big : Bool) (f : VF) (s : State) : Result :=
  vdec s c (.dmax c big f) big f 8

/-- DCVT.D.I (R144, R159, R160). -/
def execDcvtDI (c : CoreId) (big : Bool) (f : VF) (s : State) : Result :=
  vdec s c (.dcvtDI c big f) big f 9

/-- DCVT.I.D (R144, R159, R160). -/
def execDcvtID (c : CoreId) (big : Bool) (f : VF) (s : State) : Result :=
  vdec s c (.dcvtID c big f) big f 10

/-- DEQ (R144, R131). -/
def execDeq (c : CoreId) (big : Bool) (f : VF) (s : State) : Result :=
  vdecCmp s c (.deq c big f) big f 0

/-- DLT (R144, R131). -/
def execDlt (c : CoreId) (big : Bool) (f : VF) (s : State) : Result :=
  vdecCmp s c (.dlt c big f) big f 1

/-- DLE (R144, R131). -/
def execDle (c : CoreId) (big : Bool) (f : VF) (s : State) : Result :=
  vdecCmp s c (.dle c big f) big f 2

end Sys2Proof.Machine
end

