-- ==== Sys2Proof/Machine/ScalarFp.lean ====
section
/-! DEFINITION. Scalar floating-point and decimal instructions (R49, R56, R145, R159): they ignore CR.VCFG, CR.VLEN, CR.VRESUME and
the masks, and report ECAUSE.VEC 0. -/

namespace Sys2Proof.Machine

/-- A released one enters the vector queue with the register it writes (R134, R135). -/
def scalQueued (k : Core) (dest : Option RegNo) : Core :=
  match dest with
  | some r => k.vqPush ⟨[r.toNat], [], false⟩
  | none => k

/-- One with no conditions; `dest` is a vector register it writes. It is held while a trap is enabled (R134). -/
def scalInstr (s : State) (c : Nat) (i : Instr) (regs : List RegNo) (dest : Option RegNo) (f : Core → Core) : Result :=
  done (runInstr s c i (fun s =>
    ((s.onCore c (fun k => scalQueued (f (k.vqWait (regs.map (·.toNat)) []))
      (if envTe k fenvKey = 0 then dest else none))).event c 0x007 1).retire c))

/-- One with conditions (R56): trapped, the destination and FLAGS stay. It is held while a trap is enabled (R134). -/
def scalEnv (s : State) (c : Nat) (i : Instr) (key : Nat) (regs : List RegNo) (dest : Option RegNo) (val : Core → Nat → Nat × Conds)
    (put : Core → Nat → Core) : Result :=
  done (runInstr s c i (fun s =>
    let s := s.onCore c (fun k => k.vqWait (regs.map (·.toNat)) [])
    let k := s.core c
    let (v, cd) := val k (envRm k key)
    if trapped cd (envTe k key) then s.except c (trapExc key cd false)
    else
      let dest := if envTe k key = 0 then dest else none
      ((s.onCore c (fun k => scalQueued (put (k.setFlags key cd) v) dest)).event c 0x007 1).retire c))

/-- Number of a function in Table 6. -/
def fpNumber : FpFn → Nat
  | .add => 0 | .sub => 1 | .mul => 2 | .div => 3 | .sqrt => 4 | .min => 5 | .max => 6 | .sign => 7 | .signN => 8 | .signX => 9
  | .madd => 10 | .msub => 11 | .nmsub => 12 | .cvtXF => 13 | .cvtFX => 14 | .cvtXuF => 15 | .cvtFXu => 16

/-- FADD to FCVT.F.XU: the integer side of a conversion is gd or ga, at 64 bits. -/
def scalarFp (s : State) (c : Nat) (i : Instr) (ty : FpTy) (fn : FpFn) (f : RRR) : Result :=
  let t := fmtOf ty
  let low (v : W64) : Nat := v.toNat % 2 ^ t.width
  scalEnv s c i fenvKey [f.rd, f.ra, f.rb] (match fn with
      | .cvtXF | .cvtXuF => none
      | _ => some f.rd)
    (fun k rm =>
      match fn with
      | .cvtFX | .cvtFXu => fpFn (fpNumber fn) t rm 64 (k.gr f.ra).toNat 0 0
      | _ => fpFn (fpNumber fn) t rm 64 (low (k.fr f.ra)) (low (k.fr f.rb)) (low (k.fr f.rd)))
    (fun k v =>
      match fn with
      | .cvtXF | .cvtXuF => k.wg f.rd (BitVec.ofNat 64 v)
      | _ => k.wf f.rd (BitVec.ofNat 64 v))

/-- FEQ, FLT, FLE, FUNORD. -/
def scalarFpCmp (s : State) (c : Nat) (i : Instr) (ty : FpTy) (f : RRR) (r : Nat) : Result :=
  let t := fmtOf ty
  let low (v : W64) : Nat := v.toNat % 2 ^ t.width
  scalEnv s c i fenvKey [f.ra, f.rb] none
    (fun k _ => let (b, cd) := fpRel t r (low (k.fr f.ra)) (low (k.fr f.rb)); (b2n b, cd))
    (fun k v => k.wg f.rd (BitVec.ofNat 64 v))

/-- Number of a function in Table 7, or the relation. -/
def decNumber : DecFn → Nat
  | .add => 0 | .sub => 1 | .mul => 2 | .div => 3 | .fma => 4 | .quant => 5 | .rint => 6 | .min => 7 | .max => 8
  | .cvtDI => 9 | .cvtID => 10 | .eq => 0 | .lt => 1 | .le => 2

/-- DADD to DLE on vn[63:0] or vn[127:0]; the result zeroes every higher bit (R145). -/
def scalarDec (s : State) (c : Nat) (i : Instr) (big : Bool) (fn : DecFn) (f : RRR) : Result :=
  let t := dfmt big
  let low (k : Core) (r : RegNo) : Nat := (k.vr r.toNat).toNat % 2 ^ t.width
  scalEnv s c i drmKey [f.rd, f.ra, f.rb] (match fn with
      | .eq | .lt | .le | .cvtID => none
      | _ => some f.rd)
    (fun k rm =>
      match fn with
      | .eq | .lt | .le => let (b, cd) := decRel t (decNumber fn) (low k f.ra) (low k f.rb); (b2n b, cd)
      | .cvtDI => decFromInt t rm (k.gr f.ra).toNat
      | _ => decFn (decNumber fn) t rm (low k f.ra) (low k f.rb) (low k f.rd))
    (fun k v =>
      match fn with
      | .eq | .lt | .le | .cvtID => k.wg f.rd (BitVec.ofNat 64 v)
      | _ => k.wv f.rd.toNat (BitVec.ofNat 512 v))

/-- FADD to FCVT.F.XU (R145, R49, R56). -/
def execScalarFp (c : CoreId) (ty : FpTy) (fn : FpFn) (f : RRR) (s : State) : Result :=
  scalarFp s c (.scalarFp c ty fn f) ty fn f

/-- FEQ (R145). -/
def execFeq (c : CoreId) (ty : FpTy) (f : RRR) (s : State) : Result :=
  scalarFpCmp s c (.feq c ty f) ty f 0

/-- FLT (R145). -/
def execFlt (c : CoreId) (ty : FpTy) (f : RRR) (s : State) : Result :=
  scalarFpCmp s c (.flt c ty f) ty f 1

/-- FLE (R145). -/
def execFle (c : CoreId) (ty : FpTy) (f : RRR) (s : State) : Result :=
  scalarFpCmp s c (.fle c ty f) ty f 2

/-- FUNORD (R145). -/
def execFunord (c : CoreId) (ty : FpTy) (f : RRR) (s : State) : Result :=
  scalarFpCmp s c (.funord c ty f) ty f 3

/-- FMV.X.F: the raw bits, zero-extended (R145). -/
def execFmvXF (c : CoreId) (ty : FpTy) (rd : RegNo) (ra : RegNo) (s : State) : Result :=
  scalInstr s c (.fmvXF c ty rd ra) [ra] none (fun k => k.wg rd (zx (fmtOf ty).width (k.fr ra)))

/-- FMV.F.X: the raw low bits (R145, R49). -/
def execFmvFX (c : CoreId) (ty : FpTy) (rd : RegNo) (ra : RegNo) (s : State) : Result :=
  scalInstr s c (.fmvFX c ty rd ra) [rd] (some rd) (fun k => k.wf rd (zx (fmtOf ty).width (k.gr ra)))

/-- FCVT.F.F (R145). -/
def execFcvtFF (c : CoreId) (ty : FpTy) (src : FpTy) (rd : RegNo) (ra : RegNo) (s : State) : Result :=
  scalEnv s c (.fcvtFF c ty src rd ra) fenvKey [rd, ra] (some rd) (fun k rm => fpConvert (fmtOf ty) (fmtOf src) rm (k.fr ra).toNat)
    (fun k v => k.wf rd (BitVec.ofNat 64 v))

/-- The scalar decimal functions (R144, R145, R159). -/
def execScalarDecimal (c : CoreId) (big : Bool) (fn : DecFn) (f : RRR) (s : State) : Result :=
  scalarDec s c (.scalarDecimal c big fn f) big fn f

end Sys2Proof.Machine
end

