-- ==== Sys2Proof/Machine/Startup.lean ====
section
/-! DEFINITION. Start-up (R355): rails, images, chaining, the channels and their map, the memory fill, keys, the ownership table and the
release of core 0. -/

namespace Sys2Proof.Machine

/-! ## Failure and rails -/

/-- Start-up stops with a failure code (R355, R319). -/
def bootFail (s : State) (code : Nat) : State :=
  let s := s.setReg .wkBootstat 0 0 0 (BitVec.ofNat 64 (15 + code * 256))
  s.fatal 0x44 (meshPowered s) 9 0 0 (BitVec.ofNat 64 code)

/-- A rail that answers and reports VOUT_OK. -/
def railStart (s : State) (r : Nat) : State := railUp (railFrames s r 5) r (railCode r)

/-- A rail that fails: at a frame not acknowledged, or without VOUT_OK in the 2 ms after ENABLE. -/
def railStop (s : State) (f : RailFail) : State :=
  let r := f.rail.val
  match f.frame with
  | some (k, fails) => (sendFrame (railFrames s r k.val) r (railCmd k.val) fails).1
  | none =>
    let s := railFrames s r 5
    s.setVr r { s.vr r with stuck := true }

/-- The frame named does fail. -/
def railFails (f : RailFail) : Bool :=
  match f.frame with
  | some (_, fails) => (frameFate fails).isSome
  | none => true

/-- The rails in the order of R22, up to one that fails. -/
def startRails (fail : Option RailFail) : List Nat → State → State × Bool
  | [], s => (s, true)
  | r :: rest, s =>
    match fail.filter (fun f => f.rail.val == r && railFails f) with
    | some f => (railStop s f, false)
    | none => startRails fail rest (railStart s r)

/-! ## Chaining and cause (R366, R368, R482) -/

/-- The cause recorded of those that arose. -/
def firstCause (l : List Nat) : Nat := ([1, 2, 4, 3, 6, 5].find? (fun k => l.contains k)).getD 2

/-- BOOTSEQ of the boot that starts. -/
def nextSeq (s : State) : Nat :=
  let area := ((chainNow s.wicket).map (·.1.startSeq)).getD 0
  max s.wicket.startSeq area + 1

/-- The chain fields. -/
def chainFields (s : State) (r : BootRecord) : BootRecord :=
  let r := { r with bootSeq := nextSeq s }
  match s.wicket.record, chainNow s.wicket with
  | some p, _ => { r with prevSeq := p.bootSeq, prevDigest := p.digest, prevSealed := p.isSealed, chainSrc := 0 }
  | none, some (c, _) => { r with prevSeq := c.sealSeq, prevDigest := c.sealDigest, prevSealed := true, chainSrc := 1 }
  | none, none => { r with prevSeq := 0, prevDigest := 0, prevSealed := false, chainSrc := 2 }

/-- The chain area takes the new STARTSEQ. -/
def startChain (s : State) (seq : Nat) : State :=
  let c := (chainNow s.wicket).map (·.1)
  s.onWicket (fun w => { writeChain w seq ((c.map (·.sealSeq)).getD 0) ((c.map (·.sealDigest)).getD 0) with startSeq := seq })

/-! ## Channels (R268 to R273, R300, R362) -/

def slotAt (b : BootIn) (n : Nat) : Option Dimm := nthD none b.slots n

/-- A module of Table 1 of 09 that answers: stacked only where x4, and at most 256 GiB (R267, R270). -/
def dimmPasses (d : Dimm) : Bool :=
  d.supported && decide (d.h.toNat < 3) && (if d.x8 then d.h == 0 else decide (b2n d.d32 + b2n d.r2 + d.h.toNat ≤ 3))

/-- The reference (R268). -/
def reference (b : BootIn) : Option Dimm := (List.range 16).findSome? (fun n => (slotAt b n).filter dimmPasses)

def dimmSame (a d : Dimm) : Bool := a.x8 == d.x8 && a.d32 == d.d32 && a.r2 == d.r2 && a.h == d.h

/-- A channel holds a supported DIMM that matches the reference. -/
def channelOk (b : BootIn) (n : Nat) : Bool :=
  match slotAt b n, reference b with
  | some d, some r => dimmPasses d && dimmSame d r
  | _, _ => false

def dimmWord (d : Dimm) (present : Bool) : W64 :=
  BitVec.ofNat 64 (b2n d.x8 + 2 * b2n d.d32 + 4 * b2n d.r2 + 8 * d.h.toNat + 32 * b2n present)

def serialAt (b : BootIn) (n : Nat) : W32 := ((slotAt b n).map (·.serial)).getD 0

/-- The memory-health record at start-up (R362): entries of replaced modules leave; failures and marks are added. -/
def healthAtStart (s : State) (b : BootIn) : List HealthEntry :=
  let kept := (healthList s.wicket).filter (fun e =>
    !(1 ≤ e.typ.toNat && e.typ.toNat ≤ 3 && (slotAt b e.ch.toNat).any (fun d => d.serial != e.serial)))
  let kept := (List.range 16).foldl (fun l n =>
    let v := s.reg .mcHealth n 0 0
    if fld v 0 2 = 0 then l else addEntry l ⟨1, byte n, byte (fld v 0 2), byte (fld v 8 5), serialAt b n, 0⟩) kept
  (List.range 16).foldl (fun l n => (List.range 2).foldl (fun l sub =>
    let v := s.reg .mcBaddev n sub 0
    (List.range 8).foldl (fun l k =>
      if bitAt v (5 * k + 4) then addEntry l ⟨2, byte n, byte sub, byte k, serialAt b n, BitVec.ofNat 64 (fld v (5 * k) 4)⟩ else l) l) l) kept

/-- A channel's failure is logged, and recorded in HEALTH and in the memory-health record (R300). Where no strobe lane has failed, `lane` is
0 (DESIGN CHOICE, log 119). -/
def channelFails (s : State) (b : BootIn) (n lane : Nat) : State :=
  let v := s.reg .mcHealth n 0 0
  let s := s.onWicket (fun w => writeHealth w (addEntry (healthList w) ⟨1, byte n, 1, byte lane, serialAt b n, 0⟩))
  (s.setReg .mcHealth n 0 0 (setFld (setBit v 0 true) 8 5 lane)).logErr .deferred 5 n 0x23 0 4095 1

/-- Discovery (step 1 of R272): the health record, HEALTH, DIMMCFG of each channel. -/
def discover (s : State) (b : BootIn) : State :=
  let s := s.onWicket (fun w => writeHealth w (healthAtStart s b))
  (List.range 16).foldl (fun s n =>
    let s := s.setReg .mcHealth n 0 0 0
    match slotAt b n with
    | none => s
    | some d => if channelOk b n then s.setReg .mcDimmcfg n 0 0 (dimmWord d true) else channelFails s b n 0) s

/-- The candidate set (R269). -/
def candidate (s : State) (b : BootIn) : Option Nat :=
  let failed (n : Nat) : Bool := (healthList s.wicket).any (fun e => e.typ == 1 && e.ch == byte n)
  (List.range 7).find? (fun k => (List.range 16).all (fun n => !inSet k n || (channelOk b n && !failed n)))

/-- The passing window of a sweep: LEFT and WIDTH of the longest run of passing steps, the lower of equal ones (R273). -/
def passWindow (steps : BitVec 128) : Nat × Nat :=
  let r := (List.range 129).foldl (fun (acc : (Nat × Nat) × (Nat × Nat)) i =>
    let (best, run) := acc
    if i < 128 ∧ bitAt steps i then (best, (if run.2 = 0 then i else run.1, run.2 + 1))
    else (if best.2 < run.2 then run else best, (0, 0))) ((0, 0), (0, 0))
  r.1

/-- Strobe lanes trained, with read and write windows (R273). -/
def lanesOf (d : Dimm) : List (Nat × ((Nat × Nat) × (Nat × Nat))) :=
  ((List.range 20).filter (fun j => !d.x8 || j % 2 == 0)).map (fun j =>
    (j, let p := nthD (0, 0) d.lanes j; (passWindow p.1, passWindow p.2)))

/-- EYE of a lane. -/
def eyeWord (w : (Nat × Nat) × (Nat × Nat)) : W64 :=
  let ((rl, rw), (wl, ww)) := w
  BitVec.ofNat 64 (rl + rw * 2 ^ 8 + wl * 2 ^ 16 + ww * 2 ^ 24 + (rl + (rw - 1) / 2) * 2 ^ 32 + (wl + (ww - 1) / 2) * 2 ^ 40)

/-- Training of one channel (steps 2 and 3 of R272). -/
def trainChannel (b : BootIn) (s : State) (n : Nat) : State :=
  match slotAt b n with
  | none => s
  | some d =>
    let s := s.setMc n { s.mc n with resetN := true, rfm := d.rfm.getD 0 }
    if ¬ d.caOk then channelFails s b n 0
    else
      let s := (lanesOf d).foldl (fun s p => s.setReg .mcEye n p.1 0 (eyeWord p.2)) s
      match (lanesOf d).find? (fun p => p.2.1.2 < 16 || p.2.2.2 < 16) with
      | some p => channelFails s b n p.1
      | none => s.setMc n { s.mc n with trained := true }

/-! ## The map (R276 to R279, R488) -/

/-- What the firmware chooses its map for (R488): itself, the set and the module description. -/
def mapKey (s : State) (b : BootIn) (set : Nat) : BitVec 256 × Nat × W64 :=
  (s.wicket.firmware, set, ((reference b).map (fun d => dimmWord d true)).getD 0)

/-- The map of the firmware: the one it has written before for the same set and modules, else the choice that STARTUP names (R488; DESIGN CHOICE, log 43). -/
def bootMap (s : State) (b : BootIn) (set : Nat) : MapChoice :=
  ((s.wicket.maps.find? (fun p => decide (p.1 = mapKey s b set))).map (·.2)).getD b.map

/-- The map registers that firmware writes. -/
def writeMap (s : State) (b : BootIn) (set : Nat) : State :=
  let m := bootMap s b set
  let s := s.onWicket (fun w => { w with maps := (mapKey s b set, m) :: w.maps.filter (fun p => decide (p.1 ≠ mapKey s b set)) })
  let s := match reference b with
    | some d => if inSet set 0 then s else s.setReg .mcDimmcfg 0 0 0 (dimmWord d false)
    | none => s
  let s := s.setReg .mcMapcfg 0 0 0 (BitVec.ofNat 64 (m.n.toNat + m.chbits.toNat * 2 ^ 6 + m.rkbits.toNat * 2 ^ 9 + set * 2 ^ 12))
  let s := (List.range 13).foldl (fun s k => s.setReg .mcMap 0 k 0 ((nthD 0 m.masks k).setWidth 64)) s
  s.setReg .mcCrmask 0 0 0 (m.crmask.setWidth 64)

/-- The map written meets R488. -/
def mapChosen (s : State) : Bool :=
  let n := mapF s 0 6
  let ch := mapF s 6 3
  let spread := firstDependent ((List.range ch).map (fun k => (k, mapMask s k % 2 ^ ch))) []
  mcError s 0 == 0 && spread == 0xF && (List.range (mapF s 9 2)).all (fun k => mapMask s (10 + k) == 2 ^ (n - 1 - k))

/-- RUN in MC[0], then in every other controller of the set; then window 0 (step 4 of R272). -/
def runMemory (s : State) (set : Nat) : State :=
  let s := (List.finRange 16).foldl (fun (s : State) (n : Fin 16) => if n.val = 0 ∨ inSet set n then mcRun s n n.isLt else s) s
  let s := s.setReg .meshWin 132 0 0 (BitVec.ofNat 64 (1 + 2 ^ (mapF s 0 6 + 6 - 30) * 2))
  s.setRegF .meshWinstat 132 0 0 0 1 0

/-- Marks of type 2, of any channel, and remaps of type 3, as writes of Wicket make them (R296, R308, R316, R362); one already in force
stays. -/
def applyHealth (s : State) (set : Nat) (e : HealthEntry) : State :=
  let n := e.ch.toNat
  if 16 ≤ n then s
  else if e.typ = 2 ∧ e.a.toNat < 2 ∧ e.b.toNat < 8 then
    let v := s.reg .mcBaddev n e.a.toNat 0
    let top := if bitAt (s.reg .mcDimmcfg n 0 0) 0 then 4 else 9
    let v := if e.value.toNat ≤ top then setFld v (5 * e.b.toNat) 4 e.value.toNat else v
    s.setReg .mcBaddev n e.a.toNat 0 (setBit v (5 * e.b.toNat + 4) true)
  else if e.typ = 3 ∧ inSet set n then
    let used (k : Nat) : Bool := bitAt (s.reg .mcRemap n k 0) 0
    if (List.range 16).any (fun k => used k && s.regF .mcRemap n k 0 1 36 == fld e.value 0 36) then s
    else
      match (List.range 16).find? (fun k => !used k) with
      | some k =>
        let w : W64 := BitVec.ofNat 64 (1 + fld e.value 0 36 * 2 + fld e.value 36 18 * 2 ^ 37)
        s.setReg .mcRemap n k 0 (if mcRemapRefused s n k w then setBit (s.reg .mcRemap n k 0) 57 true else w)
      | none => s
  else s

/-- An address of CXL memory, which is not filled. -/
def isCxl (a : Nat) : Bool := decide (regionOf a = .cxl)

/-- The memory fill (R308): every byte zero, and stored poison where the write failed. -/
def fillMemory (s : State) (b : BootIn) : State :=
  fillFailed { s with mem := s.mem.filter (fun p => isCxl (64 * (p.1 / 64))), notes := s.notes.filter (fun p => isCxl (64 * p.1)) }
    (fun _ => true) b.fillFails

/-! ## Ownership table and handoff (R326, R356, R357) -/

/-- The entry of a page of DRAM or the vault (R326). -/
def firstEntry (parts : List (Nat × Nat)) (spare dram : Nat) (mon : Extent) (retired : List Nat) (pa : Nat) : W16 :=
  if parts.any (fun p => p.1 ≤ pa && pa < p.1 + partBytes p.2) then 0xA001
  else if spare ≤ pa ∧ pa < dram then 0xD001
  else if (mon.1 ≤ pa ∧ pa < mon.2) ∨ pa = handoffPage then 0x2001
  else if retired.contains (pa / 4096) then 0xD000
  else 0x1000

/-- One part of the table in memory, encrypted for owner 1 where it lies in DRAM. -/
def writePart (s : State) (base entries : Nat) (entry : Nat → W16) : State :=
  let m := (List.range entries).foldl (fun m i => writeBytes m (base + 2 * i) (leBytes 2 (entry i).toNat)) s.mem
  let s := { s with mem := m }
  if regionOf base = .dram then
    (List.range (partBytes entries / 64)).foldl (fun s i =>
      s.setNote (base / 64 + i) { s.note (base / 64 + i) with key := keyOf s 1 }) s
  else s

/-- The table with LOCK, and the handoff block. -/
def writeTable (s : State) (m : PubMap) (r : BootRecord) (mon fw : Image) : State :=
  let dram := 2 ^ (m.n + 6)
  let spare := 64 * spareBase m
  let config := s.wicket.config
  let parts := tableParts dram spare config
  let retired := ((healthList s.wicket).filter (fun e => e.typ == 4)).map (fun e => fld e.value 0 40)
  let entry := firstEntry parts spare dram (imgExtent mon) retired
  let at_ (k : Nat) : Nat × Nat := nthD (0, 0) parts k
  let s := writePart s (at_ 0).1 (at_ 0).2 (fun i => entry (4096 * i))
  let s := writePart s (at_ 1).1 (at_ 1).2 (fun _ => 0)
  let s := writePart s (at_ 2).1 (at_ 2).2 (fun i => entry (vaultBase + 4096 * i))
  let s := (List.range 3).foldl (fun s k =>
    (s.setReg .ownTbase 0 k 0 (BitVec.ofNat 64 (at_ k).1)).setReg .ownTpages 0 k 0 (BitVec.ofNat 64 (at_ k).2)) s
  let block := leBytes 4 0x444E4148 ++ leBytes 4 1 ++ leBytes 8 (imgLoad fw) ++ leBytes 8 (imgEntry fw) ++ leBytes 8 (imgLen fw)
    ++ leBytes 8 dram ++ leBytes 8 spare ++ parts.flatMap (fun p => leBytes 8 p.1) ++ parts.flatMap (fun p => leBytes 8 p.2)
    ++ leBytes 8 config.toNat ++ leBytes 16 r.bootId.toNat ++ leBytes 8 r.bootSeq
  { s.setReg .ownTlock 0 0 0 1 with mem := writeBytes s.mem handoffPage (block ++ copies (4096 - block.length) 0) }

/-! ## The steps -/

/-- The images of a type, from the directory. -/
def imagesOf (s : State) (d : List Byte) (t : Nat) : List Image := tries s.wicket.flash d t

/-- Steps 7 to 10. -/
def bootImages (s : State) (d : List Byte) (m : PubMap) : State :=
  let (s, key) := drawBits s
  let s := { s.onWicket (fun w => { w with bootKey := key, gens := [(0, 1), (1, 1)], draft := w.record }) with
    keys := [(0, memoryKey key 0 1), (1, memoryKey key 1 1)] }
  let s := setPhase s 3
  let config := s.wicket.config
  let (s, mon) := useImage (fun i => placesOk config [imgExtent i]) (imagesOf s d 2) s
  let s := s.onWicket (fun w => { w with record := w.draft })
  match mon with
  | none => bootFail s 5
  | some mon =>
    let (s, fw) := useImage (fun i => placesOk config [imgExtent mon, imgExtent i]) (imagesOf s d 3) s
    let s := s.onWicket (fun w => { w with record := w.draft, draft := none })
    match fw with
    | none => bootFail s 6
    | some fw =>
      let s := s.onWicket (fun w => { w with svns := put (put w.svns 2 (imgSvn mon)) 3 (imgSvn fw), running := true })
      let s := writeTable s m (theRecord s) mon fw
      let s := s.setReg .lvCorestart 0 0 0 1
      setPhase { s with power := { s.power with clocks := true } } 4

/-- Step 6: none where the map firmware is said to write breaks R488. A failing channel starts a new start-up. -/
def bootMemory (s : State) (b : BootIn) (d : List Byte) : Option State :=
  let s := discover (setPhase s 2) b
  match candidate s b with
  | none => some (bootFail s 8)
  | some set =>
    let chans := (List.range 16).filter (inSet set)
    let s := chans.foldl (trainChannel b) s
    if chans.any (fun n => bitAt (s.reg .mcHealth n 0 0) 0) then some (warmRestart s 5)
    else
      let s := writeMap s b set
      if ¬ mapChosen s then none
      else
        let s := runMemory s set
        let s := s.onRecord (fun r => { r with chanset := set })
        let s := (healthList s.wicket).foldl (fun s e => applyHealth s set e) s
        some (bootImages (fillMemory s b) d (mapNow s))

/-- Step 5: BOOTSEQ and the chain fields, the cause, the HEALTH event; the new record stands in SRAM (DEDUCED, log 36). -/
def bootRecord (s : State) (b : BootIn) (d : List Byte) : Option State :=
  let w := s.wicket
  let (s, id) := drawBits s
  let cause := firstCause s.power.causes
  let cert := listedBytes w.flash d 7
  let r := { chainFields s (w.draft.getD BootRecord.empty) with
    bootId := id.setWidth 128, device := deviceId w.fuses, cause := cause, fatal := s.power.fatalCode,
    healthBad := (healthNow w).isNone, certOk := cert.any (deviceCertOk w.fuses) }
  let r := r.log 4 6 0 (digest (healthBytes w)) (healthHeader w)
  let s := s.setReg .wkRstinfo 0 0 0 (BitVec.ofNat 64 (cause + s.power.fatalCode.toNat * 2 ^ 8))
  let s := { s with power := { s.power with fatalCode := 0, causes := [] } }
  let s := s.onWicket (fun w => { w with
    record := some r, draft := none, cert := cert.getD [], quote := [], quoteReady := false, quoteRefused := false,
    chainDue := false })
  if ¬ b.chainWritable then some (bootFail s 9)
  else bootMemory (startChain s r.bootSeq) b d

/-- Step 4: configuration, allow-list, debug certificate and DBGAUTH. -/
def bootConfig (s : State) (b : BootIn) (d : List Byte) : Option State :=
  let f := s.wicket.fuses
  let (s, ci) := useImage (fun _ => true) (imagesOf s d 4) s
  let (s, ai) := useImage (fun _ => true) (imagesOf s d 5) s
  let cert := listedBytes s.wicket.flash d 6
  let certOk : Bool := cert.any (debugCertOk f (nextSeq s))
  let auth : BitVec 4 := if certOk then f.dbg ||| BitVec.ofNat 4 (numAt (cert.getD []) 6 1) else f.dbg
  let dbg := auth.toNat + 16 * b2n (auth ≠ f.dbg)
  let data := [byte f.vrevoke.toNat, byte (b2n (f.okey ≠ 0))] ++ (List.range 6).map (fun t => byte (floorOf f t))
    ++ [byte f.dbg.toNat, byte dbg]
  let s := s.onDraft (fun r => { r.log 2 4 0 (digest data) data with debug := byte dbg })
  let s := match cert with
    | some c => s.onDraft (fun r => r.log 3 4 (b2n !certOk) (digest c) (bytesAt c 0 56))
    | none => s
  let s := s.setReg .ownDbgauth 0 0 0 (BitVec.ofNat 64 dbg)
  let svn (o : Option Image) : Nat := (o.map imgSvn).getD 0
  bootRecord (s.onWicket (fun w => { w with
    config := BitVec.ofNat 64 ((ci.map (fun i => leNat (imgBody i))).getD 0),
    allow := (ai.map (fun i => allowOf (imgBody i))).getD [],
    svns := put (put w.svns 4 (svn ci)) 5 (svn ai) })) b d

/-- The board's programming of the flash. -/
def programFlash (s : State) (b : BootIn) : State :=
  s.onWicket (fun w => { w with flash := b.flash.foldl (fun f p => writeBytes f p.1 p.2) w.flash })

/-- Steps 1 to 3. -/
def bootRom (s : State) (b : BootIn) : Option State :=
  let r := { BootRecord.empty with startfail := byte (s.regF .wkBootstat 0 0 0 8 8) }
  let s := ((programFlash s b).setReg .wkBootstat 0 0 0 0).wicketWorks
  let s := { s.onWicket (fun w => { w with entropyBad := false, draws := 0, draft := some r }) with
    power := { s.power with startDue := false } }
  if ¬ b.selfTestOk then some (bootFail s 1)
  else
    match (directory s.wicket.flash).filter (fun _ => b.flashOk) with
    | none => some (bootFail s 2)
    | some d =>
      let (s, wk) := useImage (fun _ => true) (imagesOf s d 0) s
      match wk with
      | none => some (bootFail s 3)
      | some wk =>
        let s := setPhase s 1
        let s := { s with power := { s.power with flashMode := if ¬ b.sfdpOk then 0 else if s.power.octal then 2 else 1 } }
        let (s, lv) := useImage (fun _ => true) (imagesOf s d 1) s
        match lv with
        | none => some (bootFail s 4)
        | some lv =>
          match startRails b.railFails railOrder s with
          | (s, false) => some (bootFail s 7)
          | (s, true) =>
            bootConfig (s.onWicket (fun x => { x with firmware := digest (imgBody wk), slot := imgSlot wk, svns := [(0, imgSvn wk), (1, imgSvn lv)] })) b d

/-- Start-up may begin (R475, R479). -/
def startReady (s : State) : Bool :=
  s.power.startDue && s.power.pll && s.power.vaon && s.power.pwrgood && !s.power.errFatal && !s.power.resetN

/-- STARTUP (R355). -/
def execStartup (i : BootIn) (s : State) : Result :=
  done (if startReady s then (bootRom s i).getD s else s)

/-- A start-up in which nothing of the board fails before the rails: the self-tests pass, and the flash answers as it was programmed. -/
def plainBoot (r : RailFail) : BootIn :=
  { selfTestOk := true, flashOk := true, flash := [], sfdpOk := true, railFails := some r, slots := [], map := ⟨0, 0, 0, [], 0⟩,
    chainWritable := true, fillFails := [] }

/-- RAIL_ENABLE_TIMEOUT: a start-up in which a rail's frames are not acknowledged, or it does not report VOUT_OK within 2 ms of its ENABLE
(R22, R23): steps 1 to 3 of R355, up to that rail (DESIGN CHOICE, log 124). -/
def execRailEnableTimeout (r : RailFail) (s : State) : Result :=
  done (if startReady s ∧ railFails r then (bootRom s (plainBoot r)).getD s else s)

end Sys2Proof.Machine
end

