-- ==== Sys2Proof/Machine/Tlb.lean ====
section
/-! DEFINITION. TLB invalidation (R108-R110) and CTLSYNC (R58, R60, R113). -/

namespace Sys2Proof.Machine

/-- The entries an operation removes (R108, R109): of any page size, with the combined entries built from them; the owner tag is
ignored. -/
def XlReq.hits (q : XlReq) (e : TlbEnt) : Bool :=
  let a := fld q.ga 0 48
  let asid := fld q.gb 0 16
  let mine : Bool := if q.secure then decide (e.regime = .secure) else decide (e.regime = .normal) && !e.only2 && e.vmid == q.vmid
  match q.op with
  | .page => mine && (e.s1.holds a || e.holds a) && (bitAt q.gb 63 || e.s1.glob || e.asid == asid)
  | .space => mine && !e.s1.glob && e.asid == asid
  | .s1 => mine
  | .gpage => decide (e.regime = .normal) && e.vmid == asid &&
      (if e.only2 then e.s1.holds a else (e.s2.map (fun y => y.holds a)).getD false)
  | .mach => decide (e.regime = .normal) && e.vmid == asid
  | .norm => decide (e.regime = .normal) || decide (e.regime = .pl2)
  | .hpage => decide (e.regime = .pl2) && e.s1.holds a
  | .sec => decide (e.regime = .secure) || decide (e.regime = .pl3)

/-- The cached pointers an operation removes (R108, R109, R217): those that a walk for a matching address could use, of every address
space for XLINV.PAGE, which also names global entries. -/
def XlReq.hitsPtr (q : XlReq) (e : PtrEnt) : Bool :=
  let a := fld q.ga 0 48
  let asid := fld q.gb 0 16
  let covers : Bool := e.base == a / spanOf e.lvl * spanOf e.lvl
  let mine : Bool := if q.secure then decide (e.regime = .secure) else decide (e.regime = .normal) && !e.only2 && e.vmid == q.vmid
  match q.op with
  | .page => mine && covers
  | .space => mine && e.asid == asid
  | .s1 => mine
  | .gpage => decide (e.regime = .normal) && e.vmid == asid && (e.dep2 || (e.only2 && covers))
  | .mach => decide (e.regime = .normal) && e.vmid == asid
  | .norm => decide (e.regime = .normal) || decide (e.regime = .pl2)
  | .hpage => decide (e.regime = .pl2) && covers
  | .sec => decide (e.regime = .secure) || decide (e.regime = .pl3)

/-- A core removes what an operation names. -/
def Core.invalidate (k : Core) (q : XlReq) : Core :=
  { k with tlb := k.tlb.filter (fun e => !q.hits e), ptrs := k.ptrs.filter (fun e => !q.hitsPtr e) }

/-- A core accepts every operation it has received (R110). -/
def Core.acceptAll (k : Core) : Core := { k.inbox.foldl Core.invalidate k with inbox := [] }

/-- The operation reaches every other core. -/
def broadcast (s : State) (c : Nat) (q : XlReq) : State :=
  { s with cores := s.cores.map (fun p => if p.1 = c then p else (p.1, { p.2 with inbox := p.2.inbox ++ [q] })) }

/-- An XLINV (R108, R109): after the core's earlier stores, on this core, and without L on every other. -/
def xlinv (s : State) (c : Nat) (i : Instr) (op : XlOp) (need : Nat) (ra rb : RegNo) (loc : Bool) : Result :=
  done (runInstr s c i (fun s =>
    needsLevel s c i need (fun s =>
      let s := drainAll s c
      let k := s.core c
      let q : XlReq := ⟨op, k.gr ra, k.gr rb, k.secure, fld (k.crBase 0x221) 0 16⟩
      let s := s.onCore c (fun k => k.invalidate q)
      (if loc then s else broadcast s c q).retire c)))

/-- XLINV.PAGE (R108). -/
def execXlinvPage (c : CoreId) (ra rb : RegNo) (loc : Bool) (s : State) : Result :=
  xlinv s c (.xlinvPage c ra rb loc) .page 1 ra rb loc

/-- XLINV.SPACE (R108). -/
def execXlinvSpace (c : CoreId) (ra rb : RegNo) (loc : Bool) (s : State) : Result :=
  xlinv s c (.xlinvSpace c ra rb loc) .space 1 ra rb loc

/-- XLINV.S1 (R108). -/
def execXlinvS1 (c : CoreId) (ra rb : RegNo) (loc : Bool) (s : State) : Result :=
  xlinv s c (.xlinvS1 c ra rb loc) .s1 1 ra rb loc

/-- XLINV.GPAGE (R108). -/
def execXlinvGpage (c : CoreId) (ra rb : RegNo) (loc : Bool) (s : State) : Result :=
  xlinv s c (.xlinvGpage c ra rb loc) .gpage 2 ra rb loc

/-- XLINV.MACH (R108). -/
def execXlinvMach (c : CoreId) (ra rb : RegNo) (loc : Bool) (s : State) : Result :=
  xlinv s c (.xlinvMach c ra rb loc) .mach 2 ra rb loc

/-- XLINV.NORM (R108). -/
def execXlinvNorm (c : CoreId) (ra rb : RegNo) (loc : Bool) (s : State) : Result :=
  xlinv s c (.xlinvNorm c ra rb loc) .norm 2 ra rb loc

/-- XLINV.HPAGE (R108). -/
def execXlinvHpage (c : CoreId) (ra rb : RegNo) (loc : Bool) (s : State) : Result :=
  xlinv s c (.xlinvHpage c ra rb loc) .hpage 2 ra rb loc

/-- XLINV.SEC (R108). -/
def execXlinvSec (c : CoreId) (ra rb : RegNo) (loc : Bool) (s : State) : Result :=
  xlinv s c (.xlinvSec c ra rb loc) .sec 3 ra rb loc

/-- XLINV_ACCEPT: a core accepts the oldest operation it has received, running, waiting or in Ajar (R110). -/
def execXlinvAccept (c : CoreId) (s : State) : Result :=
  doneRun s (match (s.core c).inbox with
    | [] => s
    | q :: rest => s.onCore c (fun k => { k.invalidate q with inbox := rest }))

/-- A clock switch begins where the source requested is not the one in use and can be used (R40). -/
def clockSwitch (pll : Bool) (k : Core) : Core :=
  let v := k.crBase 0x211
  if bitAt v 0 != bitAt v 1 && (pll || !bitAt v 0) then { k with switching := true } else k

/-- CTLSYNC: pending writes take effect, CR.CLKSEL.SRC among them, and the invalidations sent are complete at every core (R58,
R60, R109, R113). A change of SRC starts a clock switch (R40). -/
def execCtlsync (c : CoreId) (s : State) : Result :=
  done (runInstr s c (.ctlsync c) (fun s =>
    let s := { s with cores := s.cores.map (fun (p : Nat × Core) => (p.1, if p.2.inbox.isEmpty then p.2 else p.2.acceptAll)) }
    (s.onCore c (fun k => clockSwitch s.power.pll (k.applyAll true))).retire c))

end Sys2Proof.Machine
end

