-- ==== Sys2Proof/Machine/VecCrypto.lean ====
section
/-! DEFINITION. Cryptographic rounds and carry-less multiplies (R146-R148). -/

namespace Sys2Proof.Machine

/-- Two SHA-256 rounds of one lane (R146). -/
def shaLane (k : Core) (f : VF) (l : Nat) : ShaSt :=
  let r (n i : Nat) : W32 := BitVec.ofNat 32 (k.velem 32 (f.vd.toNat + n) i)
  let w (n : Nat) : W32 := BitVec.ofNat 32 (k.velem 32 f.va.toNat (8 * n + l))
  shaRound (shaRound ⟨r 0 l, r 0 (8 + l), r 1 l, r 1 (8 + l), r 2 l, r 2 (8 + l), r 3 l, r 3 (8 + l)⟩ (w 0)) (w 1)

/-- The lane's state written back to the same positions. -/
def putLane (f : VF) (l : Nat) (x : ShaSt) (k : Core) : Core :=
  [(0, l, x.a), (0, 8 + l, x.b), (1, l, x.c), (1, 8 + l, x.d), (2, l, x.e), (2, 8 + l, x.f), (3, l, x.g), (3, 8 + l, x.h)].foldl
    (fun k (n, i, v) => k.wvelem 32 (f.vd.toNat + n) i v.toNat) k

/-- VSHA256.RND2: eight lanes, whatever the configuration. vd is a group of four registers, disjoint from va (R129). -/
def vsha2 (s : State) (c : Nat) (i : Instr) (f : VF) : Result :=
  vecInstr s c i (groupRegs f.vd.toNat 4 ++ [f.va.toNat]) []
    (fun _ => f.vd.toNat % 4 == 0 && !(f.vd.toNat ≤ f.va.toNat && f.va.toNat < f.vd.toNat + 4)) (fun s _ =>
      let q := s.core c
      let s := s.onCore c (fun k => (List.range 8).foldl (fun k l => putLane f l (shaLane q f l) k) k)
      vecReleased s c 1 (groupRegs f.vd.toNat 4) [])

/-- VSHA256.SIG0 and SIG1 need SEW 32; they are indivisible (R157). -/
def vshaSig (s : State) (c : Nat) (i : Instr) (f : VF) (sg : W32 → W32) : Result :=
  vecInstr s c i (regsOf [f.vd, f.va]) [f.msk.toNat] (fun x => x.sew == 32 && x.groups [f.vd, f.va]) (fun s x =>
    indivisible s c x f 32 false (fun i => (s.core c).selects f.m f.msk i) (fun k i =>
      (sg (BitVec.ofNat 32 (k.velem 32 f.va.toNat i))).toNat))

/-- A function of major 0x4A on every 128-bit block of the group. -/
def vaes (s : State) (c : Nat) (i : Instr) (f : VF) (fn : Nat) : Result :=
  vecInstr s c i (regsOf [f.vd, f.vb]) [] (fun x => x.groups [f.vd, f.vb]) (fun s x =>
    let q := s.core c
    let s := wideMark s c x.g
    let s := s.onCore c (fun k => (List.range (4 * x.g)).foldl (fun k i =>
      k.wvelem 128 f.vd.toNat i
        (leNat (aesFn fn (leBytes 16 (q.velem 128 f.vd.toNat i)) (leBytes 16 (q.velem 128 f.vb.toNat i))))) k)
    vecReleased s c x.g (groupRegs f.vd.toNat x.g) [])

/-- VCLMUL and VCLMULH need SEW 64. -/
def vclm (s : State) (c : Nat) (i : Instr) (f : VF) (op : W64 → W64 → W64) : Result :=
  vecInstr s c i (regsOf ([f.vd, f.va] ++ (if f.sc then [] else [f.vb]))) [f.msk.toNat]
    (fun x => x.sew == 64 && x.groups ([f.vd, f.va] ++ (if f.sc then [] else [f.vb]))) (fun s x =>
      elementwise s c x f 64 x.vlmax false none false (fun k i =>
        let b : W64 := if f.sc then k.gr f.vb else BitVec.ofNat 64 (k.velem 64 f.vb.toNat i)
        ((op (BitVec.ofNat 64 (k.velem 64 f.va.toNat i)) b).toNat, 0)))

/-- VSHA256.RND2 (R146). -/
def execVsha256Rnd2 (c : CoreId) (f : VF) (s : State) : Result :=
  vsha2 s c (.vsha256Rnd2 c f) f

/-- VSHA256.SIG0 (R146). -/
def execVsha256Sig0 (c : CoreId) (f : VF) (s : State) : Result :=
  vshaSig s c (.vsha256Sig0 c f) f sig0

/-- VSHA256.SIG1 (R146). -/
def execVsha256Sig1 (c : CoreId) (f : VF) (s : State) : Result :=
  vshaSig s c (.vsha256Sig1 c f) f sig1

/-- VAESENC (R147). -/
def execVaesenc (c : CoreId) (f : VF) (s : State) : Result :=
  vaes s c (.vaesenc c f) f 0

/-- VAESENCLAST (R147). -/
def execVaesenclast (c : CoreId) (f : VF) (s : State) : Result :=
  vaes s c (.vaesenclast c f) f 1

/-- VAESDEC (R147). -/
def execVaesdec (c : CoreId) (f : VF) (s : State) : Result :=
  vaes s c (.vaesdec c f) f 2

/-- VAESDECLAST (R147). -/
def execVaesdeclast (c : CoreId) (f : VF) (s : State) : Result :=
  vaes s c (.vaesdeclast c f) f 3

/-- VAESIMC (R147). -/
def execVaesimc (c : CoreId) (f : VF) (s : State) : Result :=
  vaes s c (.vaesimc c f) f 4

/-- VAESSUBW (R147). -/
def execVaessubw (c : CoreId) (f : VF) (s : State) : Result :=
  vaes s c (.vaessubw c f) f 5

/-- VCLMUL (R148). -/
def execVclmul (c : CoreId) (f : VF) (s : State) : Result :=
  vclm s c (.vclmul c f) f clmulLo

/-- VCLMULH (R148). -/
def execVclmulh (c : CoreId) (f : VF) (s : State) : Result :=
  vclm s c (.vclmulh c f) f clmulHi

end Sys2Proof.Machine
end

