-- ==== Sys2Proof/Machine/VecEvents.lean ====
section
/-! DEFINITION. What the vector unit does on its own: released instructions complete (R135, R136), the wide ceiling ends (R412). -/

namespace Sys2Proof.Machine

/-- VECTOR_COMPLETE: the oldest released instruction completes; its results are in its registers already (R134-R136). -/
def execVectorComplete (c : CoreId) (s : State) : Result := done (s.onCore c (fun k => { k with vq := k.vq.tail }))

/-- WIDE_IDLE_EXPIRY: 4,096 cycles without an instruction of G 4 or 8 in the queue (R412). -/
def execWideIdleExpiry (c : CoreId) (s : State) : Result :=
  doneRun s (s.onCore c (fun k => if k.vq.any (·.wide) then k else { k with wide := false }))

end Sys2Proof.Machine
end

