-- ==== Sys2Proof/Machine/VecInt.lean ====
section
/-! DEFINITION. VCONF (R126, R127); vector integer, mask, permute and integer reduction instructions, VDOT4 (R139-R142). -/

namespace Sys2Proof.Machine

/-- VCONF: both registers at once, with no window (R126, R127). -/
def vconfInstr (s : State) (c : Nat) (i : Instr) (rd : RegNo) (cfg : BitVec 7) (vl : Core → Nat → Nat) : Result :=
  done (runInstr s c i (fun s =>
    let k := s.core c
    let v : W64 := cfg.setWidth 64
    let n := vl k (vlmaxOf v)
    (s.onCore c (fun k => ((k.crNow 4 v).crNow 5 (BitVec.ofNat 64 n)).wg rd (BitVec.ofNat 64 n))).retire c))

/-- The second operand: vb, or the low SEW bits of gb (R139). -/
def vopB (k : Core) (x : VCtx) (f : VF) (i : Nat) : Nat :=
  if f.sc then (k.gr f.vb).toNat % 2 ^ x.sew else k.velem x.sew f.vb.toNat i

/-- Group fields of the V format (R129). -/
def vGroups (x : VCtx) (f : VF) (dest : Bool) : Bool :=
  x.groups ((if dest then [f.vd] else []) ++ [f.va] ++ (if f.sc then [] else [f.vb]))

def vRegs (f : VF) : List Nat := regsOf ([f.vd, f.va] ++ (if f.sc then [] else [f.vb]))

/-- An integer function of elements. -/
def vintBin (s : State) (c : Nat) (i : Instr) (f : VF) (op : (n : Nat) → BitVec n → BitVec n → BitVec n) : Result :=
  vecInstr s c i (vRegs f) [f.msk.toNat] (fun x => vGroups x f true) (fun s x =>
    elementwise s c x f x.sew x.vlmax false none false (fun k i =>
      ((op x.sew (BitVec.ofNat x.sew (k.velem x.sew f.va.toNat i)) (BitVec.ofNat x.sew (vopB k x f i))).toNat, 0)))

/-- An integer compare: a mask register (R131). -/
def vintCmp (s : State) (c : Nat) (i : Instr) (f : VF) (op : (n : Nat) → BitVec n → BitVec n → Bool) : Result :=
  vecInstr s c i (vRegs f) [f.msk.toNat, f.vd.toNat] (fun x => vGroups x f false) (fun s x =>
    elementwise s c x f x.sew x.vlmax true none false (fun k i =>
      (b2n (op x.sew (BitVec.ofNat x.sew (k.velem x.sew f.va.toNat i)) (BitVec.ofNat x.sew (vopB k x f i))), 0)))

/-- VBLEND has no inactive elements. -/
def vblend (s : State) (c : Nat) (i : Instr) (f : VF) : Result :=
  vecInstr s c i (vRegs f) [f.msk.toNat] (fun x => vGroups x f true) (fun s x =>
    elementwise s c x f x.sew x.vlmax false none true (fun k i =>
      (if bitAt (k.mr f.msk) i then vopB k x f i else k.velem x.sew f.va.toNat i, 0)))

/-! ## Masks -/

def mreg (r : RegNo) : BitVec 3 := r.setWidth 3

/-- A bitwise function of mask registers (R140). -/
def mskOp (s : State) (c : Nat) (i : Instr) (f : VF) (op : Bool → Bool → Bool) : Result :=
  vecInstr s c i [] [f.msk.toNat, f.vd.toNat, f.va.toNat, f.vb.toNat] (fun _ => true) (fun s x =>
    elementwise s c x f x.sew x.vlmax true none false (fun k i =>
      (b2n (op (bitAt (k.mr (mreg f.va)) i) (bitAt (k.mr (mreg f.vb)) i)), 0)))

/-- MSK.COUNT and MSK.FIRST: a function of the set bits at active positions (R140). -/
def mskToGpr (s : State) (c : Nat) (i : Instr) (f : VF) (fn : List Nat → W64) : Result :=
  vecInstr s c i [] [f.msk.toNat, f.va.toNat] (fun _ => true) (fun s x =>
    let k := s.core c
    vecToGpr s c x f.vd f.stop (fn ((List.range x.vl).filter (fun i => k.selects f.m f.msk i && bitAt (k.mr (mreg f.va)) i))))

/-- VPREFIX: an inclusive running count of ma. -/
def vprefix (s : State) (c : Nat) (i : Instr) (f : VF) : Result :=
  vecInstr s c i (regsOf [f.vd]) [f.msk.toNat, f.va.toNat] (fun x => x.groups [f.vd]) (fun s x =>
    let q := s.core c
    indivisible s c x f x.sew false (q.selects f.m f.msk) (fun k i =>
      ((List.range (i + 1)).filter (fun j => bitAt (k.mr (mreg f.va)) j)).length))

/-- VINDEX. An index or count that SEW 8 does not hold keeps its low SEW bits, in VPREFIX too (DESIGN CHOICE, log 87). -/
def vindex (s : State) (c : Nat) (i : Instr) (f : VF) : Result :=
  vecInstr s c i (regsOf [f.vd]) [f.msk.toNat] (fun x => x.groups [f.vd]) (fun s x =>
    elementwise s c x f x.sew x.vlmax false none false (fun _ i => (i, 0)))

/-- VEXTRACT: element 0, sign-extended, whatever VL is. -/
def vextract (s : State) (c : Nat) (i : Instr) (f : VF) : Result :=
  vecInstr s c i (regsOf [f.va]) [] (fun x => x.groups [f.va]) (fun s x =>
    vecToGpr s c x f.vd f.stop (sx x.sew (BitVec.ofNat 64 ((s.core c).velem x.sew f.va.toNat 0))))

/-- VINSERT: element 0, every other element tail. -/
def vinsert (s : State) (c : Nat) (i : Instr) (f : VF) : Result :=
  vecInstr s c i (regsOf [f.vd]) [f.msk.toNat] (fun x => x.groups [f.vd]) (fun s x =>
    elementwise s c { x with vl := min x.vl 1 } f x.sew x.vlmax false none false (fun k _ => ((k.gr f.va).toNat, 0)))

/-- VSHIFTUP, VSHIFTDN and VPERM: vd disjoint from every source. -/
def vmove (s : State) (c : Nat) (i : Instr) (f : VF) (two : Bool) (val : VCtx → Core → Nat → Nat) : Result :=
  vecInstr s c i (regsOf ([f.vd, f.va] ++ (if two then [f.vb] else []))) [f.msk.toNat]
    (fun x => x.groups ([f.vd, f.va] ++ (if two then [f.vb] else [])) && f.vd != f.va && (!two || f.vd != f.vb)) (fun s x =>
      let q := s.core c
      indivisible s c x f x.sew false (q.selects f.m f.msk) (val x))

/-- VPACK: the selected elements in ascending order, then zeros (R140). -/
def vpack (s : State) (c : Nat) (i : Instr) (f : VF) : Result :=
  vecInstr s c i (regsOf [f.vd, f.va]) [f.vb.toNat] (fun x => x.groups [f.vd, f.va] && f.vd != f.va) (fun s x =>
    indivisible s c x f x.sew false (fun _ => true) (fun k i =>
      match ((List.range x.vl).filter (fun j => bitAt (k.mr (mreg f.vb)) j))[i]? with
      | some j => k.velem x.sew f.va.toNat j
      | none => 0))

/-! ## Reductions -/

/-- An integer reduction into element 0; every other element is tail (R141). -/
def vredInt (s : State) (c : Nat) (i : Instr) (f : VF) (op : (n : Nat) → BitVec n → BitVec n → BitVec n) : Result :=
  vecInstr s c i (regsOf [f.vd, f.va, f.vb]) [f.msk.toNat] (fun x => x.groups [f.vd, f.va, f.vb]) (fun s x =>
    let k := s.core c
    let l := (List.range x.vl).filter (k.selects f.m f.msk)
    let r := l.foldl (fun acc i => op x.sew acc (BitVec.ofNat x.sew (k.velem x.sew f.va.toNat i)))
      (BitVec.ofNat x.sew (k.velem x.sew f.vb.toNat 0))
    indivisible s c { x with vl := min x.vl 1 } f x.sew false (fun _ => true) (fun _ _ => r.toNat))

/-- A byte of a group as VDOT4 takes it. -/
def dotByte (k : Core) (b i : Nat) (signed : Bool) : Int :=
  let v := BitVec.ofNat 8 (k.velem 8 b i)
  if signed then v.toInt else v.toNat

/-- VDOT4: needs SEW 32 (R142). -/
def vdot4 (s : State) (c : Nat) (i : Instr) (f : VF) (sa sb : Bool) : Result :=
  vecInstr s c i (regsOf [f.vd, f.va, f.vb]) [f.msk.toNat] (fun x => x.sew == 32 && x.groups [f.vd, f.va, f.vb]) (fun s x =>
    elementwise s c x f 32 x.vlmax false none false (fun k i =>
      let p := ((List.range 4).map (fun j => dotByte k f.va.toNat (4 * i + j) sa * dotByte k f.vb.toNat (4 * i + j) sb)).sum
      ((BitVec.ofInt 32 (k.velem 32 f.vd.toNat i + p)).toNat, 0)))

/-- VADD (R139, Table 3). -/
def execVadd (c : CoreId) (f : VF) (s : State) : Result :=
  vintBin s c (.vadd c f) f (fun _ a b => a + b)

/-- VSUB (R139, Table 3). -/
def execVsub (c : CoreId) (f : VF) (s : State) : Result :=
  vintBin s c (.vsub c f) f (fun _ a b => a - b)

/-- VSUBR (R139, Table 3). -/
def execVsubr (c : CoreId) (f : VF) (s : State) : Result :=
  vintBin s c (.vsubr c f) f (fun _ a b => b - a)

/-- VAND (R139, Table 3). -/
def execVand (c : CoreId) (f : VF) (s : State) : Result :=
  vintBin s c (.vand c f) f (fun _ a b => a &&& b)

/-- VOR (R139, Table 3). -/
def execVor (c : CoreId) (f : VF) (s : State) : Result :=
  vintBin s c (.vor c f) f (fun _ a b => a ||| b)

/-- VXOR (R139, Table 3). -/
def execVxor (c : CoreId) (f : VF) (s : State) : Result :=
  vintBin s c (.vxor c f) f (fun _ a b => a ^^^ b)

/-- VSLL (R139, Table 3). -/
def execVsll (c : CoreId) (f : VF) (s : State) : Result :=
  vintBin s c (.vsll c f) f (fun n a b => a <<< (b.toNat % n))

/-- VSRL (R139, Table 3). -/
def execVsrl (c : CoreId) (f : VF) (s : State) : Result :=
  vintBin s c (.vsrl c f) f (fun n a b => a >>> (b.toNat % n))

/-- VSRA (R139, Table 3). -/
def execVsra (c : CoreId) (f : VF) (s : State) : Result :=
  vintBin s c (.vsra c f) f (fun n a b => a.sshiftRight (b.toNat % n))

/-- VMIN (R139, Table 3). -/
def execVmin (c : CoreId) (f : VF) (s : State) : Result :=
  vintBin s c (.vmin c f) f (fun _ a b => minS a b)

/-- VMAX (R139, Table 3). -/
def execVmax (c : CoreId) (f : VF) (s : State) : Result :=
  vintBin s c (.vmax c f) f (fun _ a b => maxS a b)

/-- VMINU (R139, Table 3). -/
def execVminu (c : CoreId) (f : VF) (s : State) : Result :=
  vintBin s c (.vminu c f) f (fun _ a b => minU a b)

/-- VMAXU (R139, Table 3). -/
def execVmaxu (c : CoreId) (f : VF) (s : State) : Result :=
  vintBin s c (.vmaxu c f) f (fun _ a b => maxU a b)

/-- VMUL (R139, Table 3). -/
def execVmul (c : CoreId) (f : VF) (s : State) : Result :=
  vintBin s c (.vmul c f) f (fun _ a b => a * b)

/-- VMULX.SS (R139, Table 3). -/
def execVmulxSs (c : CoreId) (f : VF) (s : State) : Result :=
  vintBin s c (.vmulxSs c f) f (fun n a b => highHalf n (a.toInt * b.toInt))

/-- VMULX.UU (R139, Table 3). -/
def execVmulxUu (c : CoreId) (f : VF) (s : State) : Result :=
  vintBin s c (.vmulxUu c f) f (fun n a b => highHalf n (a.toNat * b.toNat))

/-- VDIV (R139, Table 3). -/
def execVdiv (c : CoreId) (f : VF) (s : State) : Result :=
  vintBin s c (.vdiv c f) f (fun _ a b => divS a b)

/-- VDIVU (R139, Table 3). -/
def execVdivu (c : CoreId) (f : VF) (s : State) : Result :=
  vintBin s c (.vdivu c f) f (fun _ a b => divU a b)

/-- VREM (R139, Table 3). -/
def execVrem (c : CoreId) (f : VF) (s : State) : Result :=
  vintBin s c (.vrem c f) f (fun _ a b => remS a b)

/-- VREMU (R139, Table 3). -/
def execVremu (c : CoreId) (f : VF) (s : State) : Result :=
  vintBin s c (.vremu c f) f (fun _ a b => remU a b)

/-- VBLEND: vb where the mask bit is 1, else va, for every element below VL (R139). -/
def execVblend (c : CoreId) (f : VF) (s : State) : Result :=
  vblend s c (.vblend c f) f

/-- VCOPY (R139). -/
def execVcopy (c : CoreId) (f : VF) (s : State) : Result :=
  vintBin s c (.vcopy c f) f (fun _ _ b => b)

/-- VCMP.EQ (R139, R131). -/
def execVcmpEq (c : CoreId) (f : VF) (s : State) : Result :=
  vintCmp s c (.vcmpEq c f) f (fun _ a b => a == b)

/-- VCMP.NE (R139, R131). -/
def execVcmpNe (c : CoreId) (f : VF) (s : State) : Result :=
  vintCmp s c (.vcmpNe c f) f (fun _ a b => a != b)

/-- VCMP.LT (R139, R131). -/
def execVcmpLt (c : CoreId) (f : VF) (s : State) : Result :=
  vintCmp s c (.vcmpLt c f) f (fun _ a b => a.slt b)

/-- VCMP.LTU (R139, R131). -/
def execVcmpLtu (c : CoreId) (f : VF) (s : State) : Result :=
  vintCmp s c (.vcmpLtu c f) f (fun _ a b => a.ult b)

/-- VCMP.LE (R139, R131). -/
def execVcmpLe (c : CoreId) (f : VF) (s : State) : Result :=
  vintCmp s c (.vcmpLe c f) f (fun _ a b => a.sle b)

/-- VCMP.LEU (R139, R131). -/
def execVcmpLeu (c : CoreId) (f : VF) (s : State) : Result :=
  vintCmp s c (.vcmpLeu c f) f (fun _ a b => a.ule b)

/-- VCMP.GT (R139, R131). -/
def execVcmpGt (c : CoreId) (f : VF) (s : State) : Result :=
  vintCmp s c (.vcmpGt c f) f (fun _ a b => b.slt a)

/-- VCMP.GTU (R139, R131). -/
def execVcmpGtu (c : CoreId) (f : VF) (s : State) : Result :=
  vintCmp s c (.vcmpGtu c f) f (fun _ a b => b.ult a)

/-- MSK.AND (R140). -/
def execMskAnd (c : CoreId) (f : VF) (s : State) : Result :=
  mskOp s c (.mskAnd c f) f (fun a b => a && b)

/-- MSK.OR (R140). -/
def execMskOr (c : CoreId) (f : VF) (s : State) : Result :=
  mskOp s c (.mskOr c f) f (fun a b => a || b)

/-- MSK.XOR (R140). -/
def execMskXor (c : CoreId) (f : VF) (s : State) : Result :=
  mskOp s c (.mskXor c f) f (fun a b => a != b)

/-- MSK.ANDN (R140). -/
def execMskAndn (c : CoreId) (f : VF) (s : State) : Result :=
  mskOp s c (.mskAndn c f) f (fun a b => a && !b)

/-- MSK.COUNT (R140). -/
def execMskCount (c : CoreId) (f : VF) (s : State) : Result :=
  mskToGpr s c (.mskCount c f) f (fun l => BitVec.ofNat 64 l.length)

/-- MSK.FIRST (R140). -/
def execMskFirst (c : CoreId) (f : VF) (s : State) : Result :=
  mskToGpr s c (.mskFirst c f) f (fun l => match l with | [] => -1 | i :: _ => BitVec.ofNat 64 i)

/-- VPREFIX (R140). -/
def execVprefix (c : CoreId) (f : VF) (s : State) : Result :=
  vprefix s c (.vprefix c f) f

/-- VINDEX (R140). -/
def execVindex (c : CoreId) (f : VF) (s : State) : Result :=
  vindex s c (.vindex c f) f

/-- VEXTRACT (R140). -/
def execVextract (c : CoreId) (f : VF) (s : State) : Result :=
  vextract s c (.vextract c f) f

/-- VINSERT (R140). -/
def execVinsert (c : CoreId) (f : VF) (s : State) : Result :=
  vinsert s c (.vinsert c f) f

/-- VSHIFTUP (R140). -/
def execVshiftup (c : CoreId) (f : VF) (s : State) : Result :=
  vmove s c (.vshiftup c f) f false (fun x k i =>
    let n := (k.gr f.vb).toNat
    if n ≤ i then k.velem x.sew f.va.toNat (i - n) else 0)

/-- VSHIFTDN: elements at and above VL are never read (R140). -/
def execVshiftdn (c : CoreId) (f : VF) (s : State) : Result :=
  vmove s c (.vshiftdn c f) f false (fun x k i =>
    let n := (k.gr f.vb).toNat
    if i + n < x.vl then k.velem x.sew f.va.toNat (i + n) else 0)

/-- VPERM (R140). -/
def execVperm (c : CoreId) (f : VF) (s : State) : Result :=
  vmove s c (.vperm c f) f true (fun x k i =>
    k.velem x.sew f.va.toNat (k.velem x.sew f.vb.toNat i % x.vlmax))

/-- VPACK (R140). -/
def execVpack (c : CoreId) (f : VF) (s : State) : Result :=
  vpack s c (.vpack c f) f

/-- VRED.ADD (R141). -/
def execVredAdd (c : CoreId) (f : VF) (s : State) : Result :=
  vredInt s c (.vredAdd c f) f (fun _ a b => a + b)

/-- VRED.AND (R141). -/
def execVredAnd (c : CoreId) (f : VF) (s : State) : Result :=
  vredInt s c (.vredAnd c f) f (fun _ a b => a &&& b)

/-- VRED.OR (R141). -/
def execVredOr (c : CoreId) (f : VF) (s : State) : Result :=
  vredInt s c (.vredOr c f) f (fun _ a b => a ||| b)

/-- VRED.XOR (R141). -/
def execVredXor (c : CoreId) (f : VF) (s : State) : Result :=
  vredInt s c (.vredXor c f) f (fun _ a b => a ^^^ b)

/-- VRED.MIN (R141). -/
def execVredMin (c : CoreId) (f : VF) (s : State) : Result :=
  vredInt s c (.vredMin c f) f (fun _ a b => minS a b)

/-- VRED.MAX (R141). -/
def execVredMax (c : CoreId) (f : VF) (s : State) : Result :=
  vredInt s c (.vredMax c f) f (fun _ a b => maxS a b)

/-- VRED.MINU (R141). -/
def execVredMinu (c : CoreId) (f : VF) (s : State) : Result :=
  vredInt s c (.vredMinu c f) f (fun _ a b => minU a b)

/-- VRED.MAXU (R141). -/
def execVredMaxu (c : CoreId) (f : VF) (s : State) : Result :=
  vredInt s c (.vredMaxu c f) f (fun _ a b => maxU a b)

/-- VDOT4.SS (R141, R142). -/
def execVdot4Ss (c : CoreId) (f : VF) (s : State) : Result :=
  vdot4 s c (.vdot4Ss c f) f true true

/-- VDOT4.UU (R141, R142). -/
def execVdot4Uu (c : CoreId) (f : VF) (s : State) : Result :=
  vdot4 s c (.vdot4Uu c f) f false false

/-- VDOT4.SU (R141, R142). -/
def execVdot4Su (c : CoreId) (f : VF) (s : State) : Result :=
  vdot4 s c (.vdot4Su c f) f true false

/-- VCONF (R126, R127). -/
def execVconf (c : CoreId) (rd : RegNo) (ra : RegNo) (cfg : BitVec 7) (s : State) : Result :=
  vconfInstr s c (.vconf c rd ra cfg) rd cfg (fun k m => min (k.gr ra).toNat m)

/-- VCONF.MAX (R126). -/
def execVconfMax (c : CoreId) (rd : RegNo) (cfg : BitVec 7) (s : State) : Result :=
  vconfInstr s c (.vconfMax c rd cfg) rd cfg (fun _ m => m)

/-- VCONF.KEEP (R126). -/
def execVconfKeep (c : CoreId) (rd : RegNo) (cfg : BitVec 7) (s : State) : Result :=
  vconfInstr s c (.vconfKeep c rd cfg) rd cfg (fun k m => min (fld (k.crEff 5) 0 10) m)

end Sys2Proof.Machine
end

