-- ==== Sys2Proof/Machine/VecMem.lean ====
section
/-! DEFINITION. Vector loads and stores (R149-R154), with faults, the truncating load and stopping at an element. -/

namespace Sys2Proof.Machine

/-- Access modes of Table 10. -/
inductive VMode
  | unit | strided | indexed | truncating
deriving DecidableEq, Repr

/-- Registers of an index group, at least one (R150). -/
def indexRegs (x : VCtx) (f : VM) : Nat := max 1 (x.g * (8 * 2 ^ f.iw.toNat) / x.sew)

/-- The register fields of a vector memory instruction (R129, R150). -/
def vmemOk (x : VCtx) (f : VM) (mode : VMode) (store : Bool) : Bool :=
  x.groups [f.vd] &&
  match mode with
  | .indexed =>
    let n := indexRegs x f
    n ≤ 8 && f.rb.toNat % n == 0 &&
      (store || f.vd.toNat + x.g ≤ f.rb.toNat || f.rb.toNat + n ≤ f.vd.toNat)
  | _ => true

/-- The address of element `i` (Table 10). -/
def elemAddr (k : Core) (x : VCtx) (f : VM) (mode : VMode) (i : Nat) : W64 :=
  let ga := k.gr f.ra
  match mode with
  | .unit | .truncating => ga + BitVec.ofNat 64 (i * (x.sew / 8))
  | .strided => ga + BitVec.ofNat 64 i * k.gr f.rb
  | .indexed => ga + BitVec.ofNat 64 (k.velem (8 * 2 ^ f.iw.toNat) f.rb.toNat i)

/-- PERMISSION of an element whose mapping has a Device type, with the reason of R486. -/
def deviceExc (s : State) (c : Nat) (va : W64) (kind : AccKind) (m : Mapped) : Option Exc :=
  if ¬ m.mt.device then none
  else
    let two := (s.core c).stage2On (s.core c).regime
    (typeReason s kind m).map (fun r => accExc 0x0A (if two then 2 else 1) va kind (b2n two + r * 256) m.ipa)

/-- PERMISSION of an element on a Device page, found before any element is accessed (R76, R152) and confirmed by a fresh walk
(R216). -/
def elemDevice (s : State) (c : Nat) (va : W64) (kind : AccKind) : State × Option Exc :=
  match runStages s c va kind with
  | (s, .error _) => (s, none)
  | (s, .ok m) =>
    if (deviceExc s c va kind m).isNone ∨ ¬ m.cached then (s, deviceExc s c va kind m)
    else
      match runStages (forget s c va m) c va kind with
      | (s, .error _) => (s, none)
      | (s, .ok m) => (s, deviceExc s c va kind m)

/-- The lowest of these elements that lies on a Device page. -/
def firstDevice (c : Nat) (addr : Nat → W64) (kind : AccKind) : List Nat → State → State × Option (Nat × Exc)
  | [], s => (s, none)
  | i :: t, s =>
    match elemDevice s c (addr i) kind with
    | (s, some e) => (s, some (i, e))
    | (s, none) => firstDevice c addr kind t s

/-- One element loaded (R151, R169): it waits for stores it overlaps in part. -/
def loadElem (s : State) (c : Nat) (va : W64) (bytes : Nat) : State × Except Exc W64 :=
  if va.toNat % bytes ≠ 0 then (s, .error (alignExc va false))
  else
    match load s c va .vload bytes with
    | (s, .val v) => (s, .ok v)
    | (s, .fails e) => (s, .error e)
    | (s, .waits) =>
      match load (drainAll s c) c va .vload bytes with
      | (s, .val v) => (s, .ok v)
      | (s, .fails e) => (s, .error e)
      | (s, _) => (s, .ok 0)
    | (s, .left k p _ _) => (s, .error (ioAbort va false 4 k p))

/-- Elements loaded in ascending order, until one fails. -/
def loadElems (c : Nat) (addr : Nat → W64) (bytes : Nat) : List Nat → State → Tab Nat → State × Tab Nat × Option (Nat × Exc)
  | [], s, r => (s, r, none)
  | i :: t, s, r =>
    match loadElem s c (addr i) bytes with
    | (s, .error e) => (s, r, some (i, e))
    | (s, .ok v) => loadElems c addr bytes t s (r ++ [(i, v.toNat)])

/-- Elements stored in ascending order, until one fails (R153). The elements of `whole` begin a line that elements of the instruction
fill: a full-line store (R240), whose other elements are passed over. -/
def storeElems (c : Nat) (addr : Nat → W64) (bytes : Nat) (val : Nat → Nat) (whole : Nat → Bool) :
    Nat → List Nat → State → State × Option (Nat × Exc)
  | _, [], s => (s, none)
  | n + 1, _ :: t, s => storeElems c addr bytes val whole n t s
  | 0, i :: t, s =>
    if (addr i).toNat % bytes ≠ 0 then (s, some (i, alignExc (addr i) true))
    else if whole i then
      let d : W512 := BitVec.ofNat 512 (leNat (((List.range (64 / bytes)).map (fun j => leBytes bytes (val (i + j)))).flatten))
      match storeLine s c (addr i) .vstore d .line with
      | (s, .fails e) => (s, some (i, e))
      | (s, _) => storeElems c addr bytes val whole (64 / bytes - 1) t s
    else
      match storeTo s c (addr i) .vstore bytes (BitVec.ofNat 64 (val i)) false with
      | (s, .fails e) => (s, some (i, e))
      | (s, _) => storeElems c addr bytes val whole 0 t s

/-- The active elements of a unit-stride store write every byte of the line that element `i` begins (R240). -/
def wholeLine (addr : Nat → W64) (bytes : Nat) (todo : List Nat) (i : Nat) : Bool :=
  (addr i).toNat % 64 == 0 && (List.range (64 / bytes)).all (fun j => todo.contains (i + j))

/-- Causes that shorten VLDTR at an element after its first (R154). -/
def truncates (e : Exc) : Bool :=
  e.code == 0x03 || e.code == 0x0F || e.code == 0x08 || e.code == 0x0E || e.code == 0x09 || e.code == 0x0A || e.code == 0x0B
    || e.code == 0x0C || e.code == 0x10

/-- VLDTR ends short: VL is `n`, elements from `n` stay, and it completes (R154). -/
def vecShort (s : State) (c n : Nat) : State := vecDone (s.onCore c (fun k => k.crNow 5 (BitVec.ofNat 64 n))) c

/-- The elements of a load written up to `n`, or all with the tail. -/
def putLoaded (s : State) (c : Nat) (x : VCtx) (f : VM) (r : Tab Nat) (upto : Nat) : State :=
  s.onCore c (fun k => k.writeElems x x.sew f.vd.toNat x.elem upto x.vl (fun i => k.selects f.m f.msk i) (lookD 0 r))

/-- The elements of a vector load or store (R152-R156). -/
def vmemBody (s : State) (c : Nat) (x : VCtx) (f : VM) (mode : VMode) (st : Bool) : State :=
  let s := wideMark s c x.g
  if x.vl = 0 then vecDone s c
  else
    let q := s.core c
    let kind : AccKind := if st then .vstore else .vload
    let bytes := x.sew / 8
    let act := (span x.elem x.vl).filter (q.selects f.m f.msk)
    let addr := elemAddr q x f mode
    match firstDevice c addr kind act s with
    | (s, dev) =>
      let early : Option Exc := match dev with
        | some (i, e) => if mode = .truncating ∧ act.head? ≠ some i then none else some e
        | none => none
      match early with
      | some e => s.except c { e with vec := true }
      | none =>
        let hi := match dev with
          | some (i, _) => i
          | none => x.vl
        let hi := match stopAt s c true f.stop with
          | some n => min hi (max n x.elem)
          | none => hi
        let stopped : Bool := decide (hi < x.vl) && !(match dev with | some (i, _) => decide (i ≤ hi) | none => false)
        let todo := act.filter (· < hi)
        if st then
          match storeElems c addr bytes (fun i => q.velem x.sew f.vd.toNat i)
              (fun i => decide (mode = .unit) && wholeLine addr bytes todo i) 0 todo s with
          | (s, some (i, e)) => vecFault s c i e
          | (s, none) => if stopped then vecStopped s c hi else vecDone s c
        else
          match loadElems c addr bytes todo s [] with
          | (s, r, some (i, e)) =>
            let s := putLoaded s c x f r i
            if mode = .truncating ∧ act.head? ≠ some i ∧ truncates e then vecShort s c i else vecFault s c i e
          | (s, r, none) =>
            if stopped then vecStopped (putLoaded s c x f r hi) c hi
            else
              match dev with
              | some (i, _) => vecShort (putLoaded s c x f r i) c i
              | none => vecDone (putLoaded s c x f r x.vlmax) c

/-- A vector memory instruction: held (R134). -/
def vmem (s : State) (c : Nat) (i : Instr) (f : VM) (mode : VMode) (st : Bool) : Result :=
  vecInstr s c i (groupRegs f.vd.toNat 8 ++ groupRegs f.rb.toNat 8) [f.msk.toNat] (fun x => vmemOk x f mode st)
    (fun s x => vmemBody s c x f mode st)

/-- VLD (R149). -/
def execVld (c : CoreId) (f : VM) (s : State) : Result :=
  vmem s c (.vld c f) f .unit false

/-- VST (R149). -/
def execVst (c : CoreId) (f : VM) (s : State) : Result :=
  vmem s c (.vst c f) f .unit true

/-- VLDS (R149). -/
def execVlds (c : CoreId) (f : VM) (s : State) : Result :=
  vmem s c (.vlds c f) f .strided false

/-- VSTS (R149). -/
def execVsts (c : CoreId) (f : VM) (s : State) : Result :=
  vmem s c (.vsts c f) f .strided true

/-- VLDX (R149, R150). -/
def execVldx (c : CoreId) (f : VM) (s : State) : Result :=
  vmem s c (.vldx c f) f .indexed false

/-- VSTX (R149, R150). -/
def execVstx (c : CoreId) (f : VM) (s : State) : Result :=
  vmem s c (.vstx c f) f .indexed true

/-- VLDTR (R149, R154). -/
def execVldtr (c : CoreId) (f : VM) (s : State) : Result :=
  vmem s c (.vldtr c f) f .truncating false

end Sys2Proof.Machine
end

