-- ==== Sys2Proof/Machine/Dispatch.lean ====
section
/-! DEFINITION. Which meaning each command has. -/

namespace Sys2Proof.Machine

def exec (i : Instr) (s : State) : Host.Outcome State Fault Refusal :=
  match i with
  | .op c fn f => Sys2Proof.Machine.execOp c fn f s
  | .div c fn f => Sys2Proof.Machine.execDiv c fn f s
  | .opw c fn f => Sys2Proof.Machine.execOpw c fn f s
  | .addi c f => Sys2Proof.Machine.execAddi c f s
  | .andi c f => Sys2Proof.Machine.execAndi c f s
  | .ori c f => Sys2Proof.Machine.execOri c f s
  | .xori c f => Sys2Proof.Machine.execXori c f s
  | .slti c f => Sys2Proof.Machine.execSlti c f s
  | .sltiu c f => Sys2Proof.Machine.execSltiu c f s
  | .addiw c f => Sys2Proof.Machine.execAddiw c f s
  | .lui c f => Sys2Proof.Machine.execLui c f s
  | .addpc c f => Sys2Proof.Machine.execAddpc c f s
  | .slli c f => Sys2Proof.Machine.execSlli c f s
  | .srli c f => Sys2Proof.Machine.execSrli c f s
  | .srai c f => Sys2Proof.Machine.execSrai c f s
  | .rori c f => Sys2Proof.Machine.execRori c f s
  | .slliw c f => Sys2Proof.Machine.execSlliw c f s
  | .srliw c f => Sys2Proof.Machine.execSrliw c f s
  | .sraiw c f => Sys2Proof.Machine.execSraiw c f s
  | .ldB c f => Sys2Proof.Machine.execLdB c f s
  | .ldH c f => Sys2Proof.Machine.execLdH c f s
  | .ldW c f => Sys2Proof.Machine.execLdW c f s
  | .ld c f => Sys2Proof.Machine.execLd c f s
  | .ldBu c f => Sys2Proof.Machine.execLdBu c f s
  | .ldHu c f => Sys2Proof.Machine.execLdHu c f s
  | .ldWu c f => Sys2Proof.Machine.execLdWu c f s
  | .stB c f => Sys2Proof.Machine.execStB c f s
  | .stH c f => Sys2Proof.Machine.execStH c f s
  | .stW c f => Sys2Proof.Machine.execStW c f s
  | .st c f => Sys2Proof.Machine.execSt c f s
  | .fldH c f => Sys2Proof.Machine.execFldH c f s
  | .fldW c f => Sys2Proof.Machine.execFldW c f s
  | .fldD c f => Sys2Proof.Machine.execFldD c f s
  | .fstH c f => Sys2Proof.Machine.execFstH c f s
  | .fstW c f => Sys2Proof.Machine.execFstW c f s
  | .fstD c f => Sys2Proof.Machine.execFstD c f s
  | .lda c wd f => Sys2Proof.Machine.execLda c wd f s
  | .stl c wd f => Sys2Proof.Machine.execStl c wd f s
  | .ldx c k sz f => Sys2Proof.Machine.execLdx c k sz f s
  | .stx c wd sz f => Sys2Proof.Machine.execStx c wd sz f s
  | .st64 c vd ra imm => Sys2Proof.Machine.execSt64 c vd ra imm s
  | .atSwap c f => Sys2Proof.Machine.execAtSwap c f s
  | .atCas c f => Sys2Proof.Machine.execAtCas c f s
  | .atAdd c f => Sys2Proof.Machine.execAtAdd c f s
  | .atAnd c f => Sys2Proof.Machine.execAtAnd c f s
  | .atOr c f => Sys2Proof.Machine.execAtOr c f s
  | .atXor c f => Sys2Proof.Machine.execAtXor c f s
  | .atSmax c f => Sys2Proof.Machine.execAtSmax c f s
  | .atSmin c f => Sys2Proof.Machine.execAtSmin c f s
  | .atUmax c f => Sys2Proof.Machine.execAtUmax c f s
  | .atUmin c f => Sys2Proof.Machine.execAtUmin c f s
  | .beq c f => Sys2Proof.Machine.execBeq c f s
  | .bne c f => Sys2Proof.Machine.execBne c f s
  | .blt c f => Sys2Proof.Machine.execBlt c f s
  | .bge c f => Sys2Proof.Machine.execBge c f s
  | .bltu c f => Sys2Proof.Machine.execBltu c f s
  | .bgeu c f => Sys2Proof.Machine.execBgeu c f s
  | .beqz c f => Sys2Proof.Machine.execBeqz c f s
  | .bnez c f => Sys2Proof.Machine.execBnez c f s
  | .bltz c f => Sys2Proof.Machine.execBltz c f s
  | .bgez c f => Sys2Proof.Machine.execBgez c f s
  | .bgtz c f => Sys2Proof.Machine.execBgtz c f s
  | .blez c f => Sys2Proof.Machine.execBlez c f s
  | .jal c rd d off => Sys2Proof.Machine.execJal c rd d off s
  | .jalr c rd ra d imm => Sys2Proof.Machine.execJalr c rd ra d imm s
  | .dcz c ra => Sys2Proof.Machine.execDcz c ra s
  | .preload c ra level dropped => Sys2Proof.Machine.execPreload c ra level dropped s
  | .preloadF c ra level => Sys2Proof.Machine.execPreloadF c ra level s
  | .dcrClean c ra rb stop => Sys2Proof.Machine.execDcrClean c ra rb stop s
  | .dcrInv c ra rb stop => Sys2Proof.Machine.execDcrInv c ra rb stop s
  | .dcrCinv c ra rb stop => Sys2Proof.Machine.execDcrCinv c ra rb stop s
  | .xlinvPage c ra rb loc => Sys2Proof.Machine.execXlinvPage c ra rb loc s
  | .xlinvSpace c ra rb loc => Sys2Proof.Machine.execXlinvSpace c ra rb loc s
  | .xlinvS1 c ra rb loc => Sys2Proof.Machine.execXlinvS1 c ra rb loc s
  | .xlinvGpage c ra rb loc => Sys2Proof.Machine.execXlinvGpage c ra rb loc s
  | .xlinvMach c ra rb loc => Sys2Proof.Machine.execXlinvMach c ra rb loc s
  | .xlinvNorm c ra rb loc => Sys2Proof.Machine.execXlinvNorm c ra rb loc s
  | .xlinvHpage c ra rb loc => Sys2Proof.Machine.execXlinvHpage c ra rb loc s
  | .xlinvSec c ra rb loc => Sys2Proof.Machine.execXlinvSec c ra rb loc s
  | .eret c => Sys2Proof.Machine.execEret c s
  | .ei c => Sys2Proof.Machine.execEi c s
  | .di c => Sys2Proof.Machine.execDi c s
  | .ctlsync c => Sys2Proof.Machine.execCtlsync c s
  | .fenceI c => Sys2Proof.Machine.execFenceI c s
  | .fence c pr pw sr sw => Sys2Proof.Machine.execFence c pr pw sr sw s
  | .predFlush c => Sys2Proof.Machine.execPredFlush c s
  | .predBar c => Sys2Proof.Machine.execPredBar c s
  | .wait c ra => Sys2Proof.Machine.execWait c ra s
  | .sleepAjar c rd holdStep => Sys2Proof.Machine.execSleepAjar c rd holdStep s
  | .sleepLatched c rd holdStep => Sys2Proof.Machine.execSleepLatched c rd holdStep s
  | .sleepClosed c rd holdStep => Sys2Proof.Machine.execSleepClosed c rd holdStep s
  | .svc c imm => Sys2Proof.Machine.execSvc c imm s
  | .hvc c imm => Sys2Proof.Machine.execHvc c imm s
  | .gate c imm => Sys2Proof.Machine.execGate c imm s
  | .brk c imm => Sys2Proof.Machine.execBrk c imm s
  | .gateRet c => Sys2Proof.Machine.execGateRet c s
  | .ownSet c f => Sys2Proof.Machine.execOwnSet c f s
  | .crr c rd n => Sys2Proof.Machine.execCrr c rd n s
  | .crw c n ra => Sys2Proof.Machine.execCrw c n ra s
  | .clmul c f => Sys2Proof.Machine.execClmul c f s
  | .clmulh c f => Sys2Proof.Machine.execClmulh c f s
  | .crc32c c n f => Sys2Proof.Machine.execCrc32c c n f s
  | .onchipAccessTimeout c a => Sys2Proof.Machine.execOnchipAccessTimeout c a s
  | .vconf c rd ra cfg => Sys2Proof.Machine.execVconf c rd ra cfg s
  | .vconfMax c rd cfg => Sys2Proof.Machine.execVconfMax c rd cfg s
  | .vconfKeep c rd cfg => Sys2Proof.Machine.execVconfKeep c rd cfg s
  | .vadd c f => Sys2Proof.Machine.execVadd c f s
  | .vsub c f => Sys2Proof.Machine.execVsub c f s
  | .vsubr c f => Sys2Proof.Machine.execVsubr c f s
  | .vand c f => Sys2Proof.Machine.execVand c f s
  | .vor c f => Sys2Proof.Machine.execVor c f s
  | .vxor c f => Sys2Proof.Machine.execVxor c f s
  | .vsll c f => Sys2Proof.Machine.execVsll c f s
  | .vsrl c f => Sys2Proof.Machine.execVsrl c f s
  | .vsra c f => Sys2Proof.Machine.execVsra c f s
  | .vmin c f => Sys2Proof.Machine.execVmin c f s
  | .vmax c f => Sys2Proof.Machine.execVmax c f s
  | .vminu c f => Sys2Proof.Machine.execVminu c f s
  | .vmaxu c f => Sys2Proof.Machine.execVmaxu c f s
  | .vmul c f => Sys2Proof.Machine.execVmul c f s
  | .vmulxSs c f => Sys2Proof.Machine.execVmulxSs c f s
  | .vmulxUu c f => Sys2Proof.Machine.execVmulxUu c f s
  | .vdiv c f => Sys2Proof.Machine.execVdiv c f s
  | .vdivu c f => Sys2Proof.Machine.execVdivu c f s
  | .vrem c f => Sys2Proof.Machine.execVrem c f s
  | .vremu c f => Sys2Proof.Machine.execVremu c f s
  | .vblend c f => Sys2Proof.Machine.execVblend c f s
  | .vcopy c f => Sys2Proof.Machine.execVcopy c f s
  | .vcmpEq c f => Sys2Proof.Machine.execVcmpEq c f s
  | .vcmpNe c f => Sys2Proof.Machine.execVcmpNe c f s
  | .vcmpLt c f => Sys2Proof.Machine.execVcmpLt c f s
  | .vcmpLtu c f => Sys2Proof.Machine.execVcmpLtu c f s
  | .vcmpLe c f => Sys2Proof.Machine.execVcmpLe c f s
  | .vcmpLeu c f => Sys2Proof.Machine.execVcmpLeu c f s
  | .vcmpGt c f => Sys2Proof.Machine.execVcmpGt c f s
  | .vcmpGtu c f => Sys2Proof.Machine.execVcmpGtu c f s
  | .mskAnd c f => Sys2Proof.Machine.execMskAnd c f s
  | .mskOr c f => Sys2Proof.Machine.execMskOr c f s
  | .mskXor c f => Sys2Proof.Machine.execMskXor c f s
  | .mskAndn c f => Sys2Proof.Machine.execMskAndn c f s
  | .mskCount c f => Sys2Proof.Machine.execMskCount c f s
  | .mskFirst c f => Sys2Proof.Machine.execMskFirst c f s
  | .vprefix c f => Sys2Proof.Machine.execVprefix c f s
  | .vindex c f => Sys2Proof.Machine.execVindex c f s
  | .vextract c f => Sys2Proof.Machine.execVextract c f s
  | .vinsert c f => Sys2Proof.Machine.execVinsert c f s
  | .vshiftup c f => Sys2Proof.Machine.execVshiftup c f s
  | .vshiftdn c f => Sys2Proof.Machine.execVshiftdn c f s
  | .vperm c f => Sys2Proof.Machine.execVperm c f s
  | .vpack c f => Sys2Proof.Machine.execVpack c f s
  | .vredAdd c f => Sys2Proof.Machine.execVredAdd c f s
  | .vredAnd c f => Sys2Proof.Machine.execVredAnd c f s
  | .vredOr c f => Sys2Proof.Machine.execVredOr c f s
  | .vredXor c f => Sys2Proof.Machine.execVredXor c f s
  | .vredMin c f => Sys2Proof.Machine.execVredMin c f s
  | .vredMax c f => Sys2Proof.Machine.execVredMax c f s
  | .vredMinu c f => Sys2Proof.Machine.execVredMinu c f s
  | .vredMaxu c f => Sys2Proof.Machine.execVredMaxu c f s
  | .vfredOadd c f => Sys2Proof.Machine.execVfredOadd c f s
  | .vfredMin c f => Sys2Proof.Machine.execVfredMin c f s
  | .vfredMax c f => Sys2Proof.Machine.execVfredMax c f s
  | .vdot4Ss c f => Sys2Proof.Machine.execVdot4Ss c f s
  | .vdot4Uu c f => Sys2Proof.Machine.execVdot4Uu c f s
  | .vdot4Su c f => Sys2Proof.Machine.execVdot4Su c f s
  | .vfadd c f => Sys2Proof.Machine.execVfadd c f s
  | .vfsub c f => Sys2Proof.Machine.execVfsub c f s
  | .vfmul c f => Sys2Proof.Machine.execVfmul c f s
  | .vfdiv c f => Sys2Proof.Machine.execVfdiv c f s
  | .vfsqrt c f => Sys2Proof.Machine.execVfsqrt c f s
  | .vfmin c f => Sys2Proof.Machine.execVfmin c f s
  | .vfmax c f => Sys2Proof.Machine.execVfmax c f s
  | .vfsign c f => Sys2Proof.Machine.execVfsign c f s
  | .vfsignN c f => Sys2Proof.Machine.execVfsignN c f s
  | .vfsignX c f => Sys2Proof.Machine.execVfsignX c f s
  | .vfmadd c f => Sys2Proof.Machine.execVfmadd c f s
  | .vfmsub c f => Sys2Proof.Machine.execVfmsub c f s
  | .vfnmsub c f => Sys2Proof.Machine.execVfnmsub c f s
  | .vfcvtXF c f => Sys2Proof.Machine.execVfcvtXF c f s
  | .vfcvtXuF c f => Sys2Proof.Machine.execVfcvtXuF c f s
  | .vfcvtFX c f => Sys2Proof.Machine.execVfcvtFX c f s
  | .vfcvtFXu c f => Sys2Proof.Machine.execVfcvtFXu c f s
  | .vfeq c f => Sys2Proof.Machine.execVfeq c f s
  | .vflt c f => Sys2Proof.Machine.execVflt c f s
  | .vfle c f => Sys2Proof.Machine.execVfle c f s
  | .vfunord c f => Sys2Proof.Machine.execVfunord c f s
  | .dadd c big f => Sys2Proof.Machine.execDadd c big f s
  | .dsub c big f => Sys2Proof.Machine.execDsub c big f s
  | .dmul c big f => Sys2Proof.Machine.execDmul c big f s
  | .ddiv c big f => Sys2Proof.Machine.execDdiv c big f s
  | .dfma c big f => Sys2Proof.Machine.execDfma c big f s
  | .dquant c big f => Sys2Proof.Machine.execDquant c big f s
  | .drint c big f => Sys2Proof.Machine.execDrint c big f s
  | .dmin c big f => Sys2Proof.Machine.execDmin c big f s
  | .dmax c big f => Sys2Proof.Machine.execDmax c big f s
  | .dcvtDI c big f => Sys2Proof.Machine.execDcvtDI c big f s
  | .dcvtID c big f => Sys2Proof.Machine.execDcvtID c big f s
  | .deq c big f => Sys2Proof.Machine.execDeq c big f s
  | .dlt c big f => Sys2Proof.Machine.execDlt c big f s
  | .dle c big f => Sys2Proof.Machine.execDle c big f s
  | .scalarFp c ty fn f => Sys2Proof.Machine.execScalarFp c ty fn f s
  | .feq c ty f => Sys2Proof.Machine.execFeq c ty f s
  | .flt c ty f => Sys2Proof.Machine.execFlt c ty f s
  | .fle c ty f => Sys2Proof.Machine.execFle c ty f s
  | .funord c ty f => Sys2Proof.Machine.execFunord c ty f s
  | .fmvXF c ty rd ra => Sys2Proof.Machine.execFmvXF c ty rd ra s
  | .fmvFX c ty rd ra => Sys2Proof.Machine.execFmvFX c ty rd ra s
  | .fcvtFF c ty src rd ra => Sys2Proof.Machine.execFcvtFF c ty src rd ra s
  | .scalarDecimal c big fn f => Sys2Proof.Machine.execScalarDecimal c big fn f s
  | .vsha256Rnd2 c f => Sys2Proof.Machine.execVsha256Rnd2 c f s
  | .vsha256Sig0 c f => Sys2Proof.Machine.execVsha256Sig0 c f s
  | .vsha256Sig1 c f => Sys2Proof.Machine.execVsha256Sig1 c f s
  | .vaesenc c f => Sys2Proof.Machine.execVaesenc c f s
  | .vaesenclast c f => Sys2Proof.Machine.execVaesenclast c f s
  | .vaesdec c f => Sys2Proof.Machine.execVaesdec c f s
  | .vaesdeclast c f => Sys2Proof.Machine.execVaesdeclast c f s
  | .vaesimc c f => Sys2Proof.Machine.execVaesimc c f s
  | .vaessubw c f => Sys2Proof.Machine.execVaessubw c f s
  | .vclmul c f => Sys2Proof.Machine.execVclmul c f s
  | .vclmulh c f => Sys2Proof.Machine.execVclmulh c f s
  | .vld c f => Sys2Proof.Machine.execVld c f s
  | .vst c f => Sys2Proof.Machine.execVst c f s
  | .vlds c f => Sys2Proof.Machine.execVlds c f s
  | .vsts c f => Sys2Proof.Machine.execVsts c f s
  | .vldx c f => Sys2Proof.Machine.execVldx c f s
  | .vstx c f => Sys2Proof.Machine.execVstx c f s
  | .vldtr c f => Sys2Proof.Machine.execVldtr c f s
  | .ieoi c ra => Sys2Proof.Machine.execIeoi c ra s
  | .vcpuWrite c ra => Sys2Proof.Machine.execVcpuWrite c ra s
  | .unassignedEncoding c w => Sys2Proof.Machine.execUnassignedEncoding c w s
  | .configAccess who rd addr write wd v => Sys2Proof.Machine.execConfigAccess who rd addr write wd v s
  | .outboundRequest who rd addr write wd v => Sys2Proof.Machine.execOutboundRequest who rd addr write wd v s
  | .branchResolve c addr target taken kind wrong => Sys2Proof.Machine.execBranchResolve c addr target taken kind wrong s
  | .xlinvAccept c => Sys2Proof.Machine.execXlinvAccept c s
  | .waitEnd c => Sys2Proof.Machine.execWaitEnd c s
  | .entryAbort c src => Sys2Proof.Machine.execEntryAbort c src s
  | .coreWake c => Sys2Proof.Machine.execCoreWake c s
  | .packageWake src => Sys2Proof.Machine.execPackageWake src s
  | .rankFillDone n fails => Sys2Proof.Machine.execRankFillDone n fails s
  | .aonTimerWake => Sys2Proof.Machine.execAonTimerWake s
  | .debugHaltRequest c => Sys2Proof.Machine.execDebugHaltRequest c s
  | .interruptEntry c a => Sys2Proof.Machine.execInterruptEntry c a s
  | .entryResponse c r => Sys2Proof.Machine.execEntryResponse c r s
  | .storeDrain c => Sys2Proof.Machine.execStoreDrain c s
  | .partialOverlapRelease c => Sys2Proof.Machine.execPartialOverlapRelease c s
  | .ldSsbRedo c => Sys2Proof.Machine.execLdSsbRedo c s
  | .lineFill c line => Sys2Proof.Machine.execLineFill c line s
  | .vectorComplete c => Sys2Proof.Machine.execVectorComplete c s
  | .wideIdleExpiry c => Sys2Proof.Machine.execWideIdleExpiry c s
  | .vaonPowerOn => Sys2Proof.Machine.execVaonPowerOn s
  | .vaonLoss => Sys2Proof.Machine.execVaonLoss s
  | .pwrgoodRise flashOctal testEn => Sys2Proof.Machine.execPwrgoodRise flashOctal testEn s
  | .pwrgoodFall => Sys2Proof.Machine.execPwrgoodFall s
  | .pllLock => Sys2Proof.Machine.execPllLock s
  | .pllLockLoss => Sys2Proof.Machine.execPllLockLoss s
  | .clockSwitchDone c => Sys2Proof.Machine.execClockSwitchDone c s
  | .startup inp => Sys2Proof.Machine.execStartup inp s
  | .railEnableTimeout r => Sys2Proof.Machine.execRailEnableTimeout r s
  | .resetNAssert => Sys2Proof.Machine.execResetNAssert s
  | .resetNRelease => Sys2Proof.Machine.execResetNRelease s
  | .warmResetRestart => Sys2Proof.Machine.execWarmResetRestart s
  | .thermalHold x => Sys2Proof.Machine.execThermalHold x s
  | .thermalRelease x => Sys2Proof.Machine.execThermalRelease x s
  | .thermtrip x => Sys2Proof.Machine.execThermtrip x s
  | .ping rail fails => Sys2Proof.Machine.execPing rail fails s
  | .setVid rail code fails => Sys2Proof.Machine.execSetVid rail code fails s
  | .setSlew rail slew fails => Sys2Proof.Machine.execSetSlew rail slew fails s
  | .enable rail on discharge fails => Sys2Proof.Machine.execEnable rail on discharge fails s
  | .setMode rail mode fails => Sys2Proof.Machine.execSetMode rail mode fails s
  | .readVout rail mv fails => Sys2Proof.Machine.execReadVout rail mv fails s
  | .readIout rail units fails => Sys2Proof.Machine.execReadIout rail units fails s
  | .readTemp rail halfDeg fails => Sys2Proof.Machine.execReadTemp rail halfDeg fails s
  | .readStatus rail fails => Sys2Proof.Machine.execReadStatus rail fails s
  | .clearStatus rail mask fails => Sys2Proof.Machine.execClearStatus rail mask fails s
  | .readId rail id fails => Sys2Proof.Machine.execReadId rail id fails s
  | .lvlAlertSweep raised deaf => Sys2Proof.Machine.execLvlAlertSweep raised deaf s
  | .raiseVoutOk die fails => Sys2Proof.Machine.execRaiseVoutOk die fails s
  | .raiseFail die fails => Sys2Proof.Machine.execRaiseFail die fails s
  | .raiseRetry die => Sys2Proof.Machine.execRaiseRetry die s
  | .gpioEdge pin level => Sys2Proof.Machine.execGpioEdge pin level s
  | .wakeNFall => Sys2Proof.Machine.execWakeNFall s
  | .mgmtAddressMatch => Sys2Proof.Machine.execMgmtAddressMatch s
  | .mgmtStatus => Sys2Proof.Machine.execMgmtStatus s
  | .mgmtRecordRead offset => Sys2Proof.Machine.execMgmtRecordRead offset s
  | .mgmtQuoteRequest nonce => Sys2Proof.Machine.execMgmtQuoteRequest nonce s
  | .mgmtQuoteRead offset => Sys2Proof.Machine.execMgmtQuoteRead offset s
  | .mgmtCertRead offset => Sys2Proof.Machine.execMgmtCertRead offset s
  | .readShared c line l => Sys2Proof.Machine.execReadShared c line l s
  | .readUnique c line => Sys2Proof.Machine.execReadUnique c line s
  | .upgrade c line => Sys2Proof.Machine.execUpgrade c line s
  | .claimLine c line => Sys2Proof.Machine.execClaimLine c line s
  | .writeFull c line data => Sys2Proof.Machine.execWriteFull c line data s
  | .writeBack c line => Sys2Proof.Machine.execWriteBack c line s
  | .evict c line => Sys2Proof.Machine.execEvict c line s
  | .snpShared c line => Sys2Proof.Machine.execSnpShared c line s
  | .snpUnique c line => Sys2Proof.Machine.execSnpUnique c line s
  | .snpInv c line => Sys2Proof.Machine.execSnpInv c line s
  | .snoopResponse c line => Sys2Proof.Machine.execSnoopResponse c line s
  | .ownershipProbe c line => Sys2Proof.Machine.execOwnershipProbe c line s
  | .victimAccepted slice line => Sys2Proof.Machine.execVictimAccepted slice line s
  | .farAtomic c => Sys2Proof.Machine.execFarAtomic c s
  | .llcLockWrite n v x => Sys2Proof.Machine.execLlcLockWrite n v x s
  | .waymaskWrite n k v x => Sys2Proof.Machine.execWaymaskWrite n k v x s
  | .evcntRead n x => Sys2Proof.Machine.execEvcntRead n x s
  | .replayRequest stop dir again lanes => Sys2Proof.Machine.execReplayRequest stop dir again lanes s
  | .meshClockChange slow x => Sys2Proof.Machine.execMeshClockChange slow x s
  | .registerWrite addr wd v x => Sys2Proof.Machine.execRegisterWrite addr wd v x s
  | .elogd0Read r wd x => Sys2Proof.Machine.execElogd0Read r wd x s
  | .elogptrRdWrite r v x => Sys2Proof.Machine.execElogptrRdWrite r v x s
  | .runClear b x => Sys2Proof.Machine.execRunClear b x s
  | .runSet b x => Sys2Proof.Machine.execRunSet b x s
  | .blockQuiesced b => Sys2Proof.Machine.execBlockQuiesced b s
  | .windowWrite w v x => Sys2Proof.Machine.execWindowWrite w v x s
  | .memregWrite stop v x => Sys2Proof.Machine.execMemregWrite stop v x s
  | .regulatorToken stop => Sys2Proof.Machine.execRegulatorToken stop s
  | .vaultRequest line o x => Sys2Proof.Machine.execVaultRequest line o x s
  | .vaultRemapWrite n k v x => Sys2Proof.Machine.execVaultRemapWrite n k v x s
  | .vaultRemapDone n k => Sys2Proof.Machine.execVaultRemapDone n k s
  | .mcRead line x => Sys2Proof.Machine.execMcRead line x s
  | .mcWrite line data poison x => Sys2Proof.Machine.execMcWrite line data poison x s
  | .writeQueueDrain n => Sys2Proof.Machine.execWriteQueueDrain n s
  | .uethrWindowEnd n => Sys2Proof.Machine.execUethrWindowEnd n s
  | .refreshDue n rank bank busy => Sys2Proof.Machine.execRefreshDue n rank bank busy s
  | .zqCalibration n rank => Sys2Proof.Machine.execZqCalibration n rank s
  | .dimmThermalRead n readings => Sys2Proof.Machine.execDimmThermalRead n readings s
  | .chnAlert n line => Sys2Proof.Machine.execChnAlert n line s
  | .baddevWrite n sz v x => Sys2Proof.Machine.execBaddevWrite n sz v x s
  | .mcRemapWrite n k v x => Sys2Proof.Machine.execMcRemapWrite n k v x s
  | .remapDone n k => Sys2Proof.Machine.execRemapDone n k s
  | .scrubRead b sub => Sys2Proof.Machine.execScrubRead b sub s
  | .scrubOverdue b => Sys2Proof.Machine.execScrubOverdue b s
  | .create k v x => Sys2Proof.Machine.execCreate k v x s
  | .victlEnable k v en x => Sys2Proof.Machine.execVictlEnable k v en x s
  | .victlReset k v x => Sys2Proof.Machine.execVictlReset k v x s
  | .instanceResetDone k v => Sys2Proof.Machine.execInstanceResetDone k v s
  | .destroy k v x => Sys2Proof.Machine.execDestroy k v x s
  | .portalSubmit k v offset data x => Sys2Proof.Machine.execPortalSubmit k v offset data x s
  | .laneSlot k lane => Sys2Proof.Machine.execLaneSlot k lane s
  | .compress k lane cycles => Sys2Proof.Machine.execCompress k lane cycles s
  | .decompress k lane cycles => Sys2Proof.Machine.execDecompress k lane cycles s
  | .crc k lane cycles => Sys2Proof.Machine.execCrc k lane cycles s
  | .completionRecord k lane => Sys2Proof.Machine.execCompletionRecord k lane s
  | .grantWrite c level wide => Sys2Proof.Machine.execGrantWrite c level wide s
  | .grantStale c => Sys2Proof.Machine.execGrantStale c s
  | .preqWrite c level x => Sys2Proof.Machine.execPreqWrite c level x s
  | .ownerCapWindow o level power => Sys2Proof.Machine.execOwnerCapWindow o level power s
  | .energyTick other => Sys2Proof.Machine.execEnergyTick other s
  | .blkpwrWrite v x => Sys2Proof.Machine.execBlkpwrWrite v x s
  | .corestartWrite inp v x => Sys2Proof.Machine.execCorestartWrite inp v x s
  | .coreStart c => Sys2Proof.Machine.execCoreStart c s
  | .tilerst tile x => Sys2Proof.Machine.execTilerst tile x s
  | .tilerstDone => Sys2Proof.Machine.execTilerstDone s
  | .swdStart x => Sys2Proof.Machine.execSwdStart x s
  | .swdkick v x => Sys2Proof.Machine.execSwdkick v x s
  | .swdHalf => Sys2Proof.Machine.execSwdHalf s
  | .swdExpiry => Sys2Proof.Machine.execSwdExpiry s
  | .tlockWrite x => Sys2Proof.Machine.execTlockWrite x s
  | .ownershipCacheFill a pa => Sys2Proof.Machine.execOwnershipCacheFill a pa s
  | .info ch => Sys2Proof.Machine.execInfo ch s
  | .extend ch => Sys2Proof.Machine.execExtend ch s
  | .romCheck ch => Sys2Proof.Machine.execRomCheck ch s
  | .seal ch => Sys2Proof.Machine.execSeal ch s
  | .chainAreaWrite => Sys2Proof.Machine.execChainAreaWrite s
  | .quote ch => Sys2Proof.Machine.execQuote ch s
  | .logRead ch => Sys2Proof.Machine.execLogRead ch s
  | .certRead ch => Sys2Proof.Machine.execCertRead ch s
  | .keyGen ch => Sys2Proof.Machine.execKeyGen ch s
  | .keyClear ch => Sys2Proof.Machine.execKeyClear ch s
  | .healthAdd ch => Sys2Proof.Machine.execHealthAdd ch s
  | .healthRead ch => Sys2Proof.Machine.execHealthRead ch s
  | .healthDrop ch => Sys2Proof.Machine.execHealthDrop ch s
  | .svnCommit ch blown => Sys2Proof.Machine.execSvnCommit ch blown s
  | .revoke ch blown => Sys2Proof.Machine.execRevoke ch blown s
  | .ownerKey ch blown => Sys2Proof.Machine.execOwnerKey ch blown s
  | .reset ch => Sys2Proof.Machine.execReset ch s
  | .badcmd ch => Sys2Proof.Machine.execBadcmd ch s
  | .drbgReseed => Sys2Proof.Machine.execDrbgReseed s
  | .entropyTestFail => Sys2Proof.Machine.execEntropyTestFail s
  | .completion k tag r ide macOk => Sys2Proof.Machine.execCompletion k tag r ide macOk s
  | .completionTimeout k tag => Sys2Proof.Machine.execCompletionTimeout k tag s
  | .inboundRequest r => Sys2Proof.Machine.execInboundRequest r s
  | .doorbell rc p sid data ide macOk => Sys2Proof.Machine.execDoorbell rc p sid data ide macOk s
  | .cxlMemRequest k line o owner timeout devPoison => Sys2Proof.Machine.execCxlMemRequest k line o owner timeout devPoison s
  | .pmeMessage k p => Sys2Proof.Machine.execPmeMessage k p s
  | .linkUp k p width speed cxl => Sys2Proof.Machine.execLinkUp k p width speed cxl s
  | .downevt k p => Sys2Proof.Machine.execDownevt k p s
  | .uncontain k p x => Sys2Proof.Machine.execUncontain k p x s
  | .pmeto k p x => Sys2Proof.Machine.execPmeto k p x s
  | .pmeToAck k p => Sys2Proof.Machine.execPmeToAck k p s
  | .pmetoTimeout k p => Sys2Proof.Machine.execPmetoTimeout k p s
  | .hotplugPoll k p pins => Sys2Proof.Machine.execHotplugPoll k p pins s
  | .perstRelease k p => Sys2Proof.Machine.execPerstRelease k p s
  | .ioinv b sid all x => Sys2Proof.Machine.execIoinv b sid all x s
  | .ioinvDone b => Sys2Proof.Machine.execIoinvDone b s
  | .sowninv k sid all x => Sys2Proof.Machine.execSowninv k sid all x s
  | .sresume k sid all x => Sys2Proof.Machine.execSresume k sid all x s
  | .keyreq k sz x => Sys2Proof.Machine.execKeyreq k sz x s
  | .keyoutRead k sz x => Sys2Proof.Machine.execKeyoutRead k sz x s
  | .sourceEvent n => Sys2Proof.Machine.execSourceEvent n s
  | .presentSource c slot => Sys2Proof.Machine.execPresentSource c slot s
  | .displacedSource c slot => Sys2Proof.Machine.execDisplacedSource c slot s
  | .swint n x => Sys2Proof.Machine.execSwint n x s
  | .timerReached c t => Sys2Proof.Machine.execTimerReached c t s
  | .nwdStart x => Sys2Proof.Machine.execNwdStart x s
  | .nwdkick v x => Sys2Proof.Machine.execNwdkick v x s
  | .nwdStage1 => Sys2Proof.Machine.execNwdStage1 s
  | .nwdStage2 => Sys2Proof.Machine.execNwdStage2 s
  | .pmcOverflow c n => Sys2Proof.Machine.execPmcOverflow c n s
  | .sampleTaken c iaddr daddr paddr target latency source => Sys2Proof.Machine.execSampleTaken c iaddr daddr paddr target latency source s
  | .sampleRecordWrite c => Sys2Proof.Machine.execSampleRecordWrite c s
  | .pmWindowEnd stop => Sys2Proof.Machine.execPmWindowEnd stop s
  | .sowninvDone k => Sys2Proof.Machine.execSowninvDone k s
  | .keyrdy k sz => Sys2Proof.Machine.execKeyrdy k sz s
  | .selfRefreshExit => Sys2Proof.Machine.execSelfRefreshExit s
  | .lanethrWindowEnd => Sys2Proof.Machine.execLanethrWindowEnd s
  | .debugResume c => Sys2Proof.Machine.execDebugResume c s
  | .debugAccess c addr wd write v => Sys2Proof.Machine.execDebugAccess c addr wd write v s
  | .transientUpset u => Sys2Proof.Machine.execTransientUpset u s
  | .supplyOutOfRange rail => Sys2Proof.Machine.execSupplyOutOfRange rail s
  | .rcRead r wd x => Sys2Proof.Machine.execRcRead r wd x s
  | .aspmTransition k p link => Sys2Proof.Machine.execAspmTransition k p link s

end Sys2Proof.Machine
end

