-- ==== Sys2Proof/Machine/Tick.lean ====
section
/-! DEFINITION. What passes with time and no command (DESIGN CHOICE, log 3): one count of the global timestamp (R38), tokens of the bandwidth regulators
(R287), milliseconds of the watchdogs (R342, R462), ends of performance windows (R472), sleep entries that go on (R419), and core levels
that follow their targets (R408). -/

namespace Sys2Proof.Machine

/-- Mesh cycles between two counts of the timestamp (R37, R39, R262): four in three counts, or one a count on the slow divide and on the
wake clock, whose tolerance is left out (DESIGN CHOICE, log 101). -/
def meshCycles (p : Power) (a b : Nat) : Nat := if p.meshPll ∧ ¬ p.meshSlow then 4 * b / 3 - 4 * a / 3 else b - a

/-- Tokens of one regulator after some mesh cycles: RATE more in each, at most DEPTH x 256 (R287). -/
def accrue (k : Nat) (s : State) (n : Nat) : State :=
  let cfg := s.reg .meshMemreg n 0 0
  if regulatedStop n then
    s.setRegF .meshMemtok n 0 0 0 20 (min (s.regF .meshMemtok n 0 0 0 20 + k * fld cfg 4 9) (fld cfg 16 12 * 256))
  else s

/-- The stops whose register of a kind has been written. -/
def stopsSet (s : State) (i : RegId) : List Nat := (List.range 132).filter (fun n => (look s.regs (regAddr i n 0 0)).isSome)

/-- The time an owner has run on each core, for the energy shares of R416. -/
def Core.passTime (k : Core) : Core :=
  let o := k.owner.toNat
  { k with ownTime := put k.ownTime o (lookD 0 k.ownTime o + 1) }

/-- A multiple of `p` counts lies after `a` and at or before `b`. -/
def crosses (p a b : Nat) : Bool := decide (a / p < b / p)

/-- The ages of a core's local sources: of those that have become pending since, from now; of those no longer pending, none (R455). -/
def ageLocals (s : State) (c : Nat) : State :=
  let s := s.onCore c (fun k => { k with lage := k.lage.filter (fun p => localPending s c p.1) })
  ([0, 1, 2, 8, 9].filter (fun n => localPending s c n && (look (s.core c).lage n).isNone)).foldl (fun s n => localAge s c n) s

/-- What follows the timestamp while the package runs: tokens, windows, watchdogs, entries and levels. -/
def timed (old : Nat) (s : State) : State :=
  let s := if s.power.clocks then ((List.range 132).filter (fun n =>
      (look s.regs (regAddr .meshMemtok n 0 0)).isSome || (look s.regs (regAddr .meshMemreg n 0 0)).isSome)).foldl (accrue (meshCycles s.power old s.now)) s else s
  let s := (stopsSet s .pmWincfg).foldl (fun s n =>
    if s.power.clocks ∧ crosses (s.regF .pmWincfg n 0 0 1 14 * usec) old s.now then windowEnd s n else s) s
  let s := if crosses (1000 * usec) old s.now then swdMs (nwdMs s) else s
  let s := (s.cores.map (·.1)).foldl ageLocals s
  let s := (s.cores.map (·.1)).foldl (fun s c => let t := finishEntry s c; if t.stalled ∨ s.frozen then s else t) s
  if s.power.clocks then retargetAll s else s

/-- One count of the timestamp: on the always-on oscillator it advances by 48 an edge (R38). With no always-on supply nothing
counts. -/
def State.tick (s : State) : State :=
  if ¬ s.power.vaon then s
  else
    timed s.now { s with
      power := { s.power with time := (s.power.time + if s.power.pll then 1 else 48) % 2 ^ 64 },
      cores := s.cores.map (fun (p : Nat × Core) => (p.1, p.2.passTime)) }

end Sys2Proof.Machine
end

