-- ==== Sys2Proof/Machine/Step.lean ====
section
/-! DEFINITION. One step: the oldest waiting command; with none waiting, one count of the timestamp passes (DESIGN CHOICE, log 3). -/

namespace Sys2Proof.Machine

/-- The queue without its oldest command. -/
def State.rest (s : State) : State := { s with pending := s.pending.tail }

def step (s : State) : Host.Outcome State Fault Refusal :=
  match s.pending with
  | [] => .next s.tick
  | c :: _ => exec c s.rest

/-- The state with the command a word spells at the front of its queue; no word of the table spells one. -/
def State.withFetchWord (s : State) (nbits w : Nat) : State :=
  match decodeTableWord nbits w with
  | some c => { s with pending := c :: s.pending }
  | none => s

end Sys2Proof.Machine
end

