-- ==== Sys2Proof/Safety.lean ====
section
/-! DEFINITION. What counts as a safe run: from a state that keeps the model's invariants, no command stops. -/

namespace Sys2Proof.Machine

/-- The forms every operation keeps: memory in its canonical form. -/
def State.ok (s : State) : Bool := Memory.wf s.mem

/-- A step that goes on. -/
def goesOn (s : State) : Prop := ∃ t, step s = .next t

end Sys2Proof.Machine
end

