-- ==== Sys2Proof/WellFormed.lean ====
section
/-! DEFINITION. Which command terms stand for something the part can be given: an instruction whose word is an assigned encoding
(R81, R82), an event whose lists have the lengths the rules give them. -/

namespace Sys2Proof

open Machine

/-- Commands that are the execution of an instruction word by a core. -/
def Instr.encoded (i : Instr) : Bool :=
  match i with
  | .unassignedEncoding _ _ => false
  | _ => wordOf i != 0

/-- The lengths of an inbound request's lists (R440). -/
def Inbound.ok (r : Inbound) : Bool :=
  r.write == !r.data.isEmpty && (!r.write || (r.data.length == r.len && r.enable.length == r.len))

/-- A command that stands for a row of the table. -/
def Instr.wellFormed (i : Instr) : Bool :=
  match i with
  | .unassignedEncoding _ w => !assigned w
  | .configAccess _ _ _ _ wd _ => wd != .w64
  | .inboundRequest r => r.ok
  | .startup b => b.slots.length == 16 && b.map.masks.length == 13
  | .dimmThermalRead _ l => l.length ≤ 3
  | _ => !i.encoded || assigned (wordOf i)

end Sys2Proof
end

