-- ==== Sys2Proof/Certificates/Slice0/Obligations.lean ====
section
/-! DEFINITION. The statements for the provers. An instruction's statements speak of the state its own work begins in: the one its
fetch and checks leave (`fetched`). Each gives the whole next state of the core, up to the performance counters, the sampling
countdown and the activity record that every retirement moves (chapters 14 and 17), and says what else stays as it was. -/

namespace Sys2Proof.Machine

/-! ## Words shared by the statements -/

/-- The state in which instruction `i` of core `c` does its own work: fetched and checked. -/
def fetched (s : State) (c : Nat) (i : Instr) : State := (checks s c i).1

/-- Core `c` runs, no interrupt is taken in place of instruction `i` (R67), `i` passes its fetch and checks, and nothing it met must
wait. -/
def Ready (s : State) (c : Nat) (i : Instr) : Prop :=
  s.active c = true ∧ preempted s c i = false ∧ waitBarred s c i = false ∧ (checks s c i).2 = none ∧ (fetched s c i).stalled = false

/-- The part without its cores, the model's counter of free values and the count that orders pending interrupts by age. -/
def State.around (s : State) : State := { s with cores := [], free := 0, irt := { s.irt with next := 0 } }

/-- Control registers that counting moves (R464-R467): CR.CYCLE, CR.PMOVF and the eight counters. -/
def counterKey (key : Nat) : Bool := key == 0x81 || key == 0x82 || (0x88 ≤ key && key < 0x90)

/-- A core without what counting moves: counters, the sample that falls due, wrong predictions still to be counted, the age of the
overflow interrupt. -/
def Core.uncounted (k : Core) : Core :=
  { k with cr := [], pendD := [], smpLeft := 0, smpHit := false, smpDue := [], misp := [], activity := [], lage := del k.lage 8 }

/-- `k'` is `k` up to counting and the control registers of `ex`. -/
def CountsOnly (ex : Nat → Bool) (k k' : Core) : Prop :=
  k'.uncounted = k.uncounted ∧
  (∀ key, counterKey key = false → ex key = false → k'.crBase key = k.crBase key) ∧
  k'.pendD.filter (fun p => !counterKey p.num && !ex p.num) = k.pendD.filter (fun p => !counterKey p.num && !ex p.num)

/-- `t` is `s` with core `c` being `k`, up to counting and the control registers of `ex`. -/
def EndsEx (ex : Nat → Bool) (s t : State) (c : Nat) (k : Core) : Prop :=
  t.around = s.around ∧ (∀ d, d ≠ c → t.core d = s.core d) ∧ CountsOnly ex k (t.core c)

/-- `t` is `s` with core `c` being `k`, up to counting. -/
def Ends (s t : State) (c : Nat) (k : Core) : Prop := EndsEx (fun _ => false) s t c k

/-- A core past its instruction: the slot's continuation, or the next word (R100). -/
def Core.past (k : Core) : Core := { k with pc := (match k.slot with | some x => x | none => k.pc + 4), slot := none }

/-! ## What each instruction of a shape computes, from its own table of the manual -/

/-- Instructions that write one general register from general registers and the program counter (R83-R87, R122, R123). -/
def intOf : Instr → Option (CoreId × RegNo × (Core → W64))
  | .op c fn f => some (c, f.rd, fun k => opVal fn (k.gr f.ra) (k.gr f.rb) (k.gr f.rd))
  | .div c fn f => some (c, f.rd, fun k => divVal fn (k.gr f.ra) (k.gr f.rb))
  | .opw c fn f => some (c, f.rd, fun k => opwVal fn (k.gr f.ra) (k.gr f.rb))
  | .addi c f => some (c, f.rd, fun k => k.gr f.ra + f.imm.signExtend 64)
  | .andi c f => some (c, f.rd, fun k => k.gr f.ra &&& f.imm.signExtend 64)
  | .ori c f => some (c, f.rd, fun k => k.gr f.ra ||| f.imm.signExtend 64)
  | .xori c f => some (c, f.rd, fun k => k.gr f.ra ^^^ f.imm.signExtend 64)
  | .slti c f => some (c, f.rd, fun k => if (k.gr f.ra).toInt < f.imm.toInt then 1 else 0)
  | .sltiu c f => some (c, f.rd, fun k => if (k.gr f.ra).toNat < (f.imm.signExtend 64 : W64).toNat then 1 else 0)
  | .addiw c f => some (c, f.rd, fun k => ((k.gr f.ra + f.imm.signExtend 64).setWidth 32).signExtend 64)
  | .lui c f => some (c, f.rd, fun _ => (f.imm.signExtend 64) <<< 12)
  | .addpc c f => some (c, f.rd, fun k => k.pc + ((f.imm.signExtend 64) <<< 12))
  | .slli c f => some (c, f.rd, fun k => k.gr f.ra <<< f.sh.toNat)
  | .srli c f => some (c, f.rd, fun k => k.gr f.ra >>> f.sh.toNat)
  | .srai c f => some (c, f.rd, fun k => (k.gr f.ra).sshiftRight f.sh.toNat)
  | .rori c f => some (c, f.rd, fun k => (k.gr f.ra).rotateRight f.sh.toNat)
  | .slliw c f => some (c, f.rd, fun k => (((k.gr f.ra).setWidth 32 : W32) <<< (f.sh.toNat % 32)).signExtend 64)
  | .srliw c f => some (c, f.rd, fun k => (((k.gr f.ra).setWidth 32 : W32) >>> (f.sh.toNat % 32)).signExtend 64)
  | .sraiw c f => some (c, f.rd, fun k => (((k.gr f.ra).setWidth 32 : W32).sshiftRight (f.sh.toNat % 32)).signExtend 64)
  | .clmul c f => some (c, f.rd, fun k => clmulLo (k.gr f.ra) (k.gr f.rb))
  | .clmulh c f => some (c, f.rd, fun k => clmulHi (k.gr f.ra) (k.gr f.rb))
  | .crc32c c n f => some (c, f.rd, fun k =>
      (crcBytes ((k.gr f.ra).setWidth 32) (leBytes (crcCount n) (k.gr f.rb).toNat)).setWidth 64)
  | _ => none

/-- A load: register, how it is placed, bytes, address, whether it is an acquire (R88-R90). -/
def loadOf : Instr → Option (CoreId × RegNo × Dest × Nat × (Core → W64) × Bool)
  | .ldB c f => some (c, f.rd, .gpr .sb, 1, fun k => addrM k f, false)
  | .ldH c f => some (c, f.rd, .gpr .sh, 2, fun k => addrM k f, false)
  | .ldW c f => some (c, f.rd, .gpr .sw, 4, fun k => addrM k f, false)
  | .ld c f => some (c, f.rd, .gpr .dw, 8, fun k => addrM k f, false)
  | .ldBu c f => some (c, f.rd, .gpr .ub, 1, fun k => addrM k f, false)
  | .ldHu c f => some (c, f.rd, .gpr .uh, 2, fun k => addrM k f, false)
  | .ldWu c f => some (c, f.rd, .gpr .uw, 4, fun k => addrM k f, false)
  | .fldH c f => some (c, f.rd, .fpr, 2, fun k => addrM k f, false)
  | .fldW c f => some (c, f.rd, .fpr, 4, fun k => addrM k f, false)
  | .fldD c f => some (c, f.rd, .fpr, 8, fun k => addrM k f, false)
  | .lda c wd f => some (c, f.rd, .gzx, widthBytes wd, fun k => addrM k f, true)
  | .ldx c k sc f => some (c, f.rd, .gpr k, kindBytes k, fun q => addrX q sc f, false)
  | _ => none

/-- A store: bytes, address, data, whether it is a release (R88-R90). -/
def storeOf : Instr → Option (CoreId × Nat × (Core → W64) × (Core → W64) × Bool)
  | .stB c f => some (c, 1, fun k => addrM k f, fun k => k.gr f.rd, false)
  | .stH c f => some (c, 2, fun k => addrM k f, fun k => k.gr f.rd, false)
  | .stW c f => some (c, 4, fun k => addrM k f, fun k => k.gr f.rd, false)
  | .st c f => some (c, 8, fun k => addrM k f, fun k => k.gr f.rd, false)
  | .fstH c f => some (c, 2, fun k => addrM k f, fun k => k.fr f.rd, false)
  | .fstW c f => some (c, 4, fun k => addrM k f, fun k => k.fr f.rd, false)
  | .fstD c f => some (c, 8, fun k => addrM k f, fun k => k.fr f.rd, false)
  | .stl c wd f => some (c, widthBytes wd, fun k => addrM k f, fun k => k.gr f.rd, true)
  | .stx c wd sc f => some (c, widthBytes wd, fun k => addrX k sc f, fun k => k.gr f.rd, false)
  | _ => none

/-- An atomic and its function (R92). -/
def atomicOf : Instr → Option (CoreId × AtFn × AtF)
  | .atSwap c f => some (c, .swap, f)
  | .atCas c f => some (c, .cas, f)
  | .atAdd c f => some (c, .add, f)
  | .atAnd c f => some (c, .and, f)
  | .atOr c f => some (c, .or, f)
  | .atXor c f => some (c, .xor, f)
  | .atSmax c f => some (c, .smax, f)
  | .atSmin c f => some (c, .smin, f)
  | .atUmax c f => some (c, .umax, f)
  | .atUmin c f => some (c, .umin, f)
  | _ => none

/-- A conditional branch: delayed, annulling, offset in words, condition (R97). -/
def branchOf : Instr → Option (CoreId × Bool × Bool × W64 × (Core → Prop))
  | .beq c f => some (c, f.d, f.a, f.off.signExtend 64, fun k => k.gr f.rd = k.gr f.ra)
  | .bne c f => some (c, f.d, f.a, f.off.signExtend 64, fun k => k.gr f.rd ≠ k.gr f.ra)
  | .blt c f => some (c, f.d, f.a, f.off.signExtend 64, fun k => (k.gr f.rd).toInt < (k.gr f.ra).toInt)
  | .bge c f => some (c, f.d, f.a, f.off.signExtend 64, fun k => (k.gr f.ra).toInt ≤ (k.gr f.rd).toInt)
  | .bltu c f => some (c, f.d, f.a, f.off.signExtend 64, fun k => (k.gr f.rd).toNat < (k.gr f.ra).toNat)
  | .bgeu c f => some (c, f.d, f.a, f.off.signExtend 64, fun k => (k.gr f.ra).toNat ≤ (k.gr f.rd).toNat)
  | .beqz c f => some (c, f.d, f.a, f.off.signExtend 64, fun k => k.gr f.rd = 0)
  | .bnez c f => some (c, f.d, f.a, f.off.signExtend 64, fun k => k.gr f.rd ≠ 0)
  | .bltz c f => some (c, f.d, f.a, f.off.signExtend 64, fun k => (k.gr f.rd).toInt < 0)
  | .bgez c f => some (c, f.d, f.a, f.off.signExtend 64, fun k => 0 ≤ (k.gr f.rd).toInt)
  | .bgtz c f => some (c, f.d, f.a, f.off.signExtend 64, fun k => 0 < (k.gr f.rd).toInt)
  | .blez c f => some (c, f.d, f.a, f.off.signExtend 64, fun k => (k.gr f.rd).toInt ≤ 0)
  | _ => none

/-- TLB invalidation: core, operation, level, operands, local only (R108). -/
def xlinvOf : Instr → Option (CoreId × XlOp × Nat × RegNo × RegNo × Bool)
  | .xlinvPage c ra rb l => some (c, .page, 1, ra, rb, l)
  | .xlinvSpace c ra rb l => some (c, .space, 1, ra, rb, l)
  | .xlinvS1 c ra rb l => some (c, .s1, 1, ra, rb, l)
  | .xlinvGpage c ra rb l => some (c, .gpage, 2, ra, rb, l)
  | .xlinvMach c ra rb l => some (c, .mach, 2, ra, rb, l)
  | .xlinvNorm c ra rb l => some (c, .norm, 2, ra, rb, l)
  | .xlinvHpage c ra rb l => some (c, .hpage, 2, ra, rb, l)
  | .xlinvSec c ra rb l => some (c, .sec, 3, ra, rb, l)
  | _ => none

/-- Instructions that only PL1 and above (2, 3: level 2, level 3 and above) execute, with that level (R65, R68, R108, R117, R120). -/
def instrLevel : Instr → Option (CoreId × Nat)
  | .eret c => some (c, 1)
  | .ei c => some (c, 1)
  | .di c => some (c, 1)
  | .gateRet c => some (c, 3)
  | .gate c _ => some (c, 1)
  | .hvc c _ => some (c, 1)
  | .dcrInv c _ _ _ => some (c, 1)
  | .ownSet c _ => some (c, 3)
  | .xlinvPage c _ _ _ => some (c, 1)
  | .xlinvSpace c _ _ _ => some (c, 1)
  | .xlinvS1 c _ _ _ => some (c, 1)
  | .xlinvGpage c _ _ _ => some (c, 2)
  | .xlinvMach c _ _ _ => some (c, 2)
  | .xlinvNorm c _ _ _ => some (c, 2)
  | .xlinvHpage c _ _ _ => some (c, 2)
  | .xlinvSec c _ _ _ => some (c, 3)
  | _ => none

/-- The state after exception `e` of core `c`, up to counting: the level it is taken at and the core there. -/
def TakenAt (s t : State) (c : Nat) (e : Exc) (kind : Option Nat) : Prop :=
  let k := s.core c
  let lv := takingLevel k (if e.code = 0x20 then 3 else routeIn k.secure e.route)
  Ends s t c (k.enter lv.2 lv.1 e kind)

/-! ## Vector instructions: their classes of elements and their functions -/

/-- What element `e` of a destination of `w`-bit elements holds after an instruction (R128, R130): `start` the first element the
instruction handles. -/
def elemAfter (x : VCtx) (act : Nat → Bool) (val : Nat → Nat) (start w : Nat) (old : Nat) (e : Nat) : Nat :=
  if e < start then old
  else if e < x.vl then (if act e then val e % 2 ^ w else if x.inact then 0 else old)
  else if x.tail then 0 else old

/-- The vector registers after: elements of the group at `b` as `elemAfter` says, every register outside the group unchanged. -/
def GroupAfter (x : VCtx) (w b count start : Nat) (act : Nat → Bool) (val : Nat → Nat) (k k' : Core) : Prop :=
  (∀ e, e < count → k'.velem w b e = elemAfter x act val start w (k.velem w b e) e) ∧
  (∀ r, r < 32 → ¬ (b ≤ r ∧ r < b + x.g) → k'.vr r = k.vr r)

/-- The mask registers after: bits of `md` by class (R131), every other mask register unchanged. -/
def MaskAfter (x : VCtx) (md : BitVec 3) (start : Nat) (act val : Nat → Bool) (k k' : Core) : Prop :=
  (∀ e, e < 512 → bitAt (k'.mr md) e =
    if e < start then bitAt (k.mr md) e
    else if e < x.vl then (if act e then val e else if x.inact then false else bitAt (k.mr md) e)
    else if x.tail then false else bitAt (k.mr md) e) ∧
  (∀ r, r ≠ md → k'.mr r = k.mr r)

/-- Core `c` of `t` has retired a vector instruction begun in `s` (R134, R155): CR.VRESUME.ELEM is 0, the program counter has moved,
and nothing but vector and mask registers, the vector unit's queue, general register and control registers named by `ex`, and the
activity of the unit, has changed. -/
def VecRetired (ex : Nat → Bool) (s t : State) (c : Nat) (g : Tab W64) : Prop :=
  let k' := t.core c
  EndsEx (fun n => n == 6 || ex n) s t c
    { s.core c with v := k'.v, m := k'.m, vq := k'.vq, wide := k'.wide, g := g }.past ∧
  k'.crBase 6 = 0

/-- Core `c` of `t` has retired a vector instruction begun in `s` that writes no element and no register (R130). -/
def VecNothing (s t : State) (c : Nat) : Prop :=
  VecRetired (fun _ => false) s t c (s.core c).g ∧ (t.core c).v = (s.core c).v ∧ (t.core c).m = (s.core c).m

/-- Registers of a core: general, vector and mask registers, program counter with its slot, CR.STATUS, and the control registers but
those that counting moves. -/
def SameRegs (k k' : Core) : Prop :=
  k'.g = k.g ∧ k'.v = k.v ∧ k'.m = k.m ∧ k'.pc = k.pc ∧ k'.slot = k.slot ∧ k'.status = k.status ∧
  ∀ key, counterKey key = false → k'.crBase key = k.crBase key

/-- Element-wise integer instructions that write a group (R139): the function of an element of va and of vb or gb. -/
def vintOf : Instr → Option (CoreId × VF × ((n : Nat) → BitVec n → BitVec n → BitVec n))
  | .vadd c f => some (c, f, fun _ a b => a + b)
  | .vsub c f => some (c, f, fun _ a b => a - b)
  | .vsubr c f => some (c, f, fun _ a b => b - a)
  | .vand c f => some (c, f, fun _ a b => a &&& b)
  | .vor c f => some (c, f, fun _ a b => a ||| b)
  | .vxor c f => some (c, f, fun _ a b => a ^^^ b)
  | .vsll c f => some (c, f, fun n a b => a <<< (b.toNat % n))
  | .vsrl c f => some (c, f, fun n a b => a >>> (b.toNat % n))
  | .vsra c f => some (c, f, fun n a b => a.sshiftRight (b.toNat % n))
  | .vmin c f => some (c, f, fun _ a b => if a.toInt ≤ b.toInt then a else b)
  | .vmax c f => some (c, f, fun _ a b => if a.toInt ≤ b.toInt then b else a)
  | .vminu c f => some (c, f, fun _ a b => if a.toNat ≤ b.toNat then a else b)
  | .vmaxu c f => some (c, f, fun _ a b => if a.toNat ≤ b.toNat then b else a)
  | .vmul c f => some (c, f, fun _ a b => a * b)
  | .vmulxSs c f => some (c, f, fun n a b => BitVec.ofInt n (a.toInt * b.toInt / 2 ^ n))
  | .vmulxUu c f => some (c, f, fun n a b => BitVec.ofNat n (a.toNat * b.toNat / 2 ^ n))
  | .vdiv c f => some (c, f, fun n a b => if b = 0 then BitVec.allOnes n else BitVec.ofInt n (a.toInt.tdiv b.toInt))
  | .vdivu c f => some (c, f, fun n a b => if b = 0 then BitVec.allOnes n else BitVec.ofNat n (a.toNat / b.toNat))
  | .vrem c f => some (c, f, fun n a b => if b = 0 then a else BitVec.ofInt n (a.toInt.tmod b.toInt))
  | .vremu c f => some (c, f, fun n a b => if b = 0 then a else BitVec.ofNat n (a.toNat % b.toNat))
  | .vcopy c f => some (c, f, fun _ _ b => b)
  | _ => none

/-- Integer compares into a mask register (R131, R139). -/
def vcmpOf : Instr → Option (CoreId × VF × ((n : Nat) → BitVec n → BitVec n → Prop))
  | .vcmpEq c f => some (c, f, fun _ a b => a = b)
  | .vcmpNe c f => some (c, f, fun _ a b => a ≠ b)
  | .vcmpLt c f => some (c, f, fun _ a b => a.toInt < b.toInt)
  | .vcmpLtu c f => some (c, f, fun _ a b => a.toNat < b.toNat)
  | .vcmpLe c f => some (c, f, fun _ a b => a.toInt ≤ b.toInt)
  | .vcmpLeu c f => some (c, f, fun _ a b => a.toNat ≤ b.toNat)
  | .vcmpGt c f => some (c, f, fun _ a b => b.toInt < a.toInt)
  | .vcmpGtu c f => some (c, f, fun _ a b => b.toNat < a.toNat)
  | _ => none

/-- Functions of two mask registers (R140). -/
def mskOf : Instr → Option (CoreId × VF × (Bool → Bool → Bool))
  | .mskAnd c f => some (c, f, fun a b => a && b)
  | .mskOr c f => some (c, f, fun a b => a || b)
  | .mskXor c f => some (c, f, fun a b => a != b)
  | .mskAndn c f => some (c, f, fun a b => a && !b)
  | _ => none

/-- Integer reductions (R141). -/
def vredOf : Instr → Option (CoreId × VF × ((n : Nat) → BitVec n → BitVec n → BitVec n))
  | .vredAdd c f => some (c, f, fun _ a b => a + b)
  | .vredAnd c f => some (c, f, fun _ a b => a &&& b)
  | .vredOr c f => some (c, f, fun _ a b => a ||| b)
  | .vredXor c f => some (c, f, fun _ a b => a ^^^ b)
  | .vredMin c f => some (c, f, fun _ a b => if a.toInt ≤ b.toInt then a else b)
  | .vredMax c f => some (c, f, fun _ a b => if a.toInt ≤ b.toInt then b else a)
  | .vredMinu c f => some (c, f, fun _ a b => if a.toNat ≤ b.toNat then a else b)
  | .vredMaxu c f => some (c, f, fun _ a b => if a.toNat ≤ b.toNat then b else a)
  | _ => none

/-- Floating-point reductions (R141). -/
def vfredOf : Instr → Option (CoreId × VF × (Fmt → Nat → Nat → Nat → Nat × Conds))
  | .vfredOadd c f => some (c, f, fun t rm a b => fpAdd t rm a b)
  | .vfredMin c f => some (c, f, fun t _ a b => fpMinMax t false a b)
  | .vfredMax c f => some (c, f, fun t _ a b => fpMinMax t true a b)
  | _ => none

/-- Vector floating-point functions: of the format, the rounding direction, the element width, and elements of va, vb and vd (R143). -/
def vfpOf : Instr → Option (CoreId × VF × (Fmt → Nat → Nat → Nat → Nat → Nat → Nat × Conds))
  | .vfadd c f => some (c, f, fun t rm _ a b _ => fpAdd t rm a b)
  | .vfsub c f => some (c, f, fun t rm _ a b _ => fpSub t rm a b)
  | .vfmul c f => some (c, f, fun t rm _ a b _ => fpMul t rm a b)
  | .vfdiv c f => some (c, f, fun t rm _ a b _ => fpDiv t rm a b)
  | .vfsqrt c f => some (c, f, fun t rm _ a _ _ => fpSqrt t rm a)
  | .vfmin c f => some (c, f, fun t _ _ a b _ => fpMinMax t false a b)
  | .vfmax c f => some (c, f, fun t _ _ a b _ => fpMinMax t true a b)
  | .vfsign c f => some (c, f, fun t _ _ a b _ => (fpSign t 0 a b, cNone))
  | .vfsignN c f => some (c, f, fun t _ _ a b _ => (fpSign t 1 a b, cNone))
  | .vfsignX c f => some (c, f, fun t _ _ a b _ => (fpSign t 2 a b, cNone))
  | .vfmadd c f => some (c, f, fun t rm _ a b d => fpFma t rm a b d false false)
  | .vfmsub c f => some (c, f, fun t rm _ a b d => fpFma t rm a b d false true)
  | .vfnmsub c f => some (c, f, fun t rm _ a b d => fpFma t rm a b d true false)
  | .vfcvtXF c f => some (c, f, fun t rm w a _ _ => fpToInt t rm w true a)
  | .vfcvtFX c f => some (c, f, fun t rm w a _ _ => fpFromInt t rm w true a)
  | .vfcvtXuF c f => some (c, f, fun t rm w a _ _ => fpToInt t rm w false a)
  | .vfcvtFXu c f => some (c, f, fun t rm w a _ _ => fpFromInt t rm w false a)
  | _ => none

/-- Floating-point compares: 0 equal, 1 less, 2 less or equal, 3 unordered (R143). -/
def vfcmpOf : Instr → Option (CoreId × VF × Nat)
  | .vfeq c f => some (c, f, 0)
  | .vflt c f => some (c, f, 1)
  | .vfle c f => some (c, f, 2)
  | .vfunord c f => some (c, f, 3)
  | _ => none

/-- Vector decimal functions (R144). -/
def vdecOf : Instr → Option (CoreId × Bool × VF × (DFmt → Nat → Nat → Nat → Nat → Nat × Conds))
  | .dadd c g f => some (c, g, f, fun t rm a b _ => decAdd t rm a b)
  | .dsub c g f => some (c, g, f, fun t rm a b _ => decSub t rm a b)
  | .dmul c g f => some (c, g, f, fun t rm a b _ => decMul t rm a b)
  | .ddiv c g f => some (c, g, f, fun t rm a b _ => decDiv t rm a b)
  | .dfma c g f => some (c, g, f, fun t rm a b d => decFma t rm a b d)
  | .dquant c g f => some (c, g, f, fun t rm a b _ => decQuant t rm a b)
  | .drint c g f => some (c, g, f, fun t rm a _ _ => decRint t rm a)
  | .dmin c g f => some (c, g, f, fun t _ a b _ => decMinMax t false a b)
  | .dmax c g f => some (c, g, f, fun t _ a b _ => decMinMax t true a b)
  | .dcvtDI c g f => some (c, g, f, fun t rm _ b _ => decFromInt t rm (b % 2 ^ 64))
  | .dcvtID c g f => some (c, g, f, fun t rm a _ _ => decToInt64 t rm a)
  | _ => none

/-- Vector decimal compares (R144). -/
def vdcmpOf : Instr → Option (CoreId × Bool × VF × Nat)
  | .deq c g f => some (c, g, f, 0)
  | .dlt c g f => some (c, g, f, 1)
  | .dle c g f => some (c, g, f, 2)
  | _ => none

/-- AES steps (R147). -/
def aesOf : Instr → Option (CoreId × VF × (List Byte → List Byte → List Byte))
  | .vaesenc c f => some (c, f, fun st k => List.zipWith (· ^^^ ·) (mixColumns false (shiftRows false (st.map sbox))) k)
  | .vaesenclast c f => some (c, f, fun st k => List.zipWith (· ^^^ ·) (shiftRows false (st.map sbox)) k)
  | .vaesdec c f => some (c, f, fun st k => List.zipWith (· ^^^ ·) (mixColumns true (shiftRows true (st.map invSbox))) k)
  | .vaesdeclast c f => some (c, f, fun st k => List.zipWith (· ^^^ ·) (shiftRows true (st.map invSbox)) k)
  | .vaesimc c f => some (c, f, fun _ k => mixColumns true k)
  | .vaessubw c f => some (c, f, fun _ k => k.map sbox)
  | _ => none

/-- Vector loads and stores with their mode; stores are true (R149). -/
def vmemOf : Instr → Option (CoreId × VM × VMode × Bool)
  | .vld c f => some (c, f, .unit, false)
  | .vst c f => some (c, f, .unit, true)
  | .vlds c f => some (c, f, .strided, false)
  | .vsts c f => some (c, f, .strided, true)
  | .vldx c f => some (c, f, .indexed, false)
  | .vstx c f => some (c, f, .indexed, true)
  | .vldtr c f => some (c, f, .truncating, false)
  | _ => none

/-- Where a branch leaves its core (R57, R97, R100). -/
def Core.branched (k : Core) (taken d a : Bool) (tgt : W64) : Core :=
  match d, taken, a with
  | false, true, _ => { k with pc := tgt, slot := none }
  | false, false, _ => { k with pc := k.pc + 4, slot := none }
  | true, true, _ => { k with pc := k.pc + 4, slot := some tgt }
  | true, false, false => { k with pc := k.pc + 4, slot := some (k.pc + 8) }
  | true, false, true => { k.position with pc := k.pc + 8, slot := none }

end Sys2Proof.Machine

open Sys2Proof Sys2Proof.Machine

/-! ## The queue -/

/-- A step takes the command at the front of the queue and runs it with the queue's rest.
Rests on choices of the model: log 69. -/
def Obligations.StepRunsFront : Prop :=
  ∀ (c : Instr) (rest : List Instr) (s : State),
    step { s with pending := c :: rest } = exec c { s with pending := rest }

/-- With no command waiting a step is one count of the global timestamp, of 48 on the always-on oscillator, and the queue stays empty;
with no always-on supply nothing changes (R38, R461; a step in place of idling is the model's choice, log 3). -/
def Obligations.IdleStepCountsTime : Prop :=
  (∀ s : State, s.pending = [] → s.power.vaon = true → ∃ t, step s = .next t ∧ t.pending = [] ∧
    t.power.time = (s.power.time + if s.power.pll then 1 else 48) % 2 ^ 64) ∧
  (∀ s : State, s.pending = [] → s.power.vaon = false → step s = .next s)

/-! ## Register files (chapter 02) -/

/-- Writing general register r and reading register q: g0 reads as zero and discards writes (R48); a scalar floating result fills the low
bits of its vector register and zeroes every higher bit (R49). -/
def Obligations.RegisterFiles : Prop :=
  (∀ (k : Core) (r q : RegNo) (v : W64),
    (k.wg r v).gr q = if q = 0 then 0 else if q = r then v else k.gr q) ∧
  (∀ (k : Core) (r : RegNo) (v : W64) (q : Nat), q < 32 →
    (k.wf r v).vr q = if q = r.toNat then v.setWidth 512 else k.vr q)

/-! ## Integer instructions (chapter 03) -/

/-- Integer, carry-less multiply and CRC-32C instructions write rd alone, and the core goes on; with rd g0 nothing is written
(R83-R87, R122). -/
def Obligations.IntegerInstructionsComplete : Prop :=
  ∀ (i : Instr) (c : CoreId) (rd : RegNo) (v : Core → W64) (s : State), intOf i = some (c, rd, v) →
    Ready s c i →
    ∃ t, exec i s = .next t ∧
      Ends (fetched s c i) t c (((fetched s c i).core c).wg rd (v ((fetched s c i).core c))).past

/-- Division never raises an exception; by zero the quotient is all ones and the remainder ga; DIV of the most negative number by -1
gives that number and REM 0 (R84). -/
def Obligations.DivisionCorners : Prop :=
  ∀ (c : CoreId) (fn : DivFn) (f : RRR) (s : State), Ready s c (.div c fn f) →
    ∃ t w, exec (.div c fn f) s = .next t ∧
      Ends (fetched s c (.div c fn f)) t c (((fetched s c (.div c fn f)).core c).wg f.rd w).past ∧
      (∀ a b : W64, ((fetched s c (.div c fn f)).core c).gr f.ra = a → ((fetched s c (.div c fn f)).core c).gr f.rb = b →
        f.rd ≠ 0 →
        (b = 0 → (t.core c).gr f.rd = match fn with | .div | .divu => BitVec.allOnes 64 | .rem | .remu => a) ∧
        (a = BitVec.intMin 64 → b = -1 → fn = .div → (t.core c).gr f.rd = BitVec.intMin 64) ∧
        (a = BitVec.intMin 64 → b = -1 → fn = .rem → (t.core c).gr f.rd = 0))

/-! ## Loads, stores, atomics (chapters 03 and 05) -/

/-- A load whose access gives a value places it, extended as its mnemonic says, in its register, and the core goes on; it stores
nothing (R49, R88-R90). An acquire load is aligned and follows the release stores in the buffer (R71). -/
def Obligations.LoadsComplete : Prop :=
  ∀ (i : Instr) (c : CoreId) (rd : RegNo) (d : Dest) (n : Nat) (va : Core → W64) (acq : Bool) (s w : State) (v : W64),
    loadOf i = some (c, rd, d, n, va, acq) → Ready s c i →
    (acq = true → (va ((fetched s c i).core c)).toNat % n = 0) →
    load (if acq then drainThrough (fetched s c i) c (fun e => e.rel) else fetched s c i) c (va ((fetched s c i).core c)) .load n
      = (w, .val v) → w.stalled = false →
    ∃ t, exec i s = .next t ∧ Ends w t c ((w.core c).place rd d v).past

/-- A load of a write-back line that the core's L2 holds clean of upsets, with no store buffered over it, gives the line's bytes, and
changes no memory, no other core's lines and no register of any core (R169, R224).
Rests on choices of the model: log 60. -/
def Obligations.LoadHitsOwnCopy : Prop :=
  ∀ (s u : State) (c : Nat) (va : W64) (n : Nat) (x : Xlat) (y : L2Line),
    va.toNat % 64 + n ≤ 64 → translate s c va .load (va.toNat % n == 0) = (u, .ok x) → (regionAt x.pa).memory = true → x.mt = .wb →
    x.pa % 64 = va.toNat % 64 →
    (u.core c).sb.all (fun e => !e.overlaps x.pa n) = true →
    look (u.core c).l2 (x.pa / 64) = some y → tableLocked u = false →
    y.c.one = 0 → y.c.two = 0 → y.oneD = 0 → y.twoD = 0 → y.badI = false → y.c.poison = 0 →
    ∃ t, load s c va .load n = (t, .val (sliceBytes ((y.c.data >>> (8 * (x.pa % 64))).setWidth 64) 0 n)) ∧
      t.mem = u.mem ∧ (∀ d, d ≠ c → t.core d = u.core d) ∧ (∀ d, (t.core d).g = (u.core d).g ∧ (t.core d).v = (u.core d).v ∧ (t.core d).m = (u.core d).m)

/-- A store whose access is accepted retires and writes no register. To Normal or Device-P memory within one line it enters the store
buffer last, with its low bytes, and changes no byte of memory; across a line it enters as a pair of entries, the lower bytes first
(R88-R90, R168, R178). To a Device-S page, or to TILERST, it takes effect at once, after every earlier store (R75, R192, R480). -/
def Obligations.StoresComplete : Prop :=
  (∀ (i : Instr) (c : CoreId) (n : Nat) (va v : Core → W64) (rel : Bool) (s w : State),
    storeOf i = some (c, n, va, v, rel) → Ready s c i →
    (rel = true → (va ((fetched s c i).core c)).toNat % n = 0) →
    storeTo (fetched s c i) c (va ((fetched s c i).core c)) .store n (v ((fetched s c i).core c)) rel = (w, .done) →
    w.stalled = false →
    ∃ t, exec i s = .next t ∧ Ends w t c (w.core c).past) ∧
  (∀ (s u : State) (c : Nat) (va v : W64) (n : Nat) (rel : Bool) (x : Xlat),
    va.toNat % 64 + n ≤ 64 → storePart s c va .store (va.toNat % n == 0) = (u, .ok x) → (∀ k, regionAt x.pa ≠ .ecam k) →
    let e : SbEnt := ⟨x.pa, n, (sliceBytes v 0 n).setWidth 512, .bytes, x.mt, false, rel, identOf u c⟩
    (x.mt ≠ .devS → x.pa / 8 * 8 ≠ regAddr .lvTilerst 0 0 0 → (u.core c).sb.length < 128 →
      ∃ t, storeTo s c va .store n v rel = (t, .done) ∧ t.around = u.around ∧ (∀ d, d ≠ c → t.core d = u.core d) ∧
        t.core c = { u.core c with sb := (u.core c).sb ++ [e] }) ∧
    (x.mt = .devS ∨ x.pa / 8 * 8 = regAddr .lvTilerst 0 0 0 →
      storeTo s c va .store n v rel = (drainEntry (drainAll u c) c e, .done))) ∧
  (∀ (s u w : State) (c : Nat) (va v : W64) (n : Nat) (rel : Bool) (x y : Xlat),
    64 < va.toNat % 64 + n → storePart s c va .store false = (u, .ok x) →
    storePart u c (va + BitVec.ofNat 64 (64 - va.toNat % 64)) .store false = (w, .ok y) →
    x.mt ≠ .devS → y.mt ≠ .devS → (∀ k, regionAt x.pa ≠ .ecam k) → (∀ k, regionAt y.pa ≠ .ecam k) → (w.core c).sb.length < 127 →
    x.pa / 8 * 8 ≠ regAddr .lvTilerst 0 0 0 → y.pa / 8 * 8 ≠ regAddr .lvTilerst 0 0 0 →
    ∃ t, storeTo s c va .store n v rel = (t, .done) ∧ t.around = w.around ∧ (∀ d, d ≠ c → t.core d = w.core d) ∧
      t.core c = { w.core c with sb := (w.core c).sb ++
        [⟨x.pa, 64 - va.toNat % 64, (sliceBytes v 0 (64 - va.toNat % 64)).setWidth 512, .bytes, x.mt, true, rel, identOf w c⟩,
         ⟨y.pa, n - (64 - va.toNat % 64), (sliceBytes v (64 - va.toNat % 64) (n - (64 - va.toNat % 64))).setWidth 512, .bytes, y.mt,
            false, rel, identOf w c⟩] })

/-- ST64, once no queued vector instruction is to write vd (R135), and DCZ store a whole aligned line, from vd and as zeros, and retire;
a misaligned ST64 raises ALIGN with WRITE (R91, R104).
Rests on choices of the model: log 57. -/
def Obligations.LineStoresComplete : Prop :=
  (∀ (c : CoreId) (vd ra : RegNo) (imm : BitVec 10) (s w : State),
    let i : Instr := .st64 c vd ra imm
    let u := fetched s c i
    let va := (u.core c).gr ra + ((imm.signExtend 64) <<< 6)
    let q := u.setCore c ((u.core c).vqWait [vd.toNat] [])
    Ready s c i →
    (va.toNat % 64 = 0 → storeLine q c va .st64 ((u.core c).vr vd.toNat) .line = (w, .done) → w.stalled = false →
      ∃ t, exec i s = .next t ∧ Ends w t c (w.core c).past) ∧
    (va.toNat % 64 ≠ 0 → ∃ t, exec i s = .next t ∧ TakenAt q t c { Exc.plain 0x03 1 va 0 with write := true } none)) ∧
  (∀ (c : CoreId) (ra : RegNo) (s w : State),
    let i : Instr := .dcz c ra
    let u := fetched s c i
    let va := (u.core c).gr ra &&& ~~~0x3F#64
    Ready s c i → storeLine u c va .dcz 0 .zero = (w, .done) → w.stalled = false →
      ∃ t, exec i s = .next t ∧ Ends w t c (w.core c).past)

/-- An atomic that answers an old value writes it, sign-extended in the .W forms, to gd; with rd = g0 it is posted and writes no
register; a misaligned one raises ALIGN (R92-R95). -/
def Obligations.AtomicsComplete : Prop :=
  ∀ (i : Instr) (c : CoreId) (fn : AtFn) (f : AtF) (s w : State), atomicOf i = some (c, fn, f) → Ready s c i →
    let u := fetched s c i
    let run := atomicAt u c ((u.core c).gr f.ra) fn f.dword f.far f.rl (f.rd == 0) ((u.core c).gr f.rb) ((u.core c).gr f.rd)
    (∀ v, run = (w, .old v) → w.stalled = false →
      ∃ t, exec i s = .next t ∧ Ends w t c ((w.core c).wg f.rd (if f.dword then v else (v.setWidth 32).signExtend 64)).past) ∧
    (run = (w, .posted) → w.stalled = false → ∃ t, exec i s = .next t ∧ Ends w t c (w.core c).past) ∧
    (((u.core c).gr f.ra).toNat % (if f.dword then 8 else 4) ≠ 0 →
      ∃ t, exec i s = .next t ∧ TakenAt u t c { Exc.plain 0x03 1 ((u.core c).gr f.ra) 0 with write := true } none)

/-- STORE_DRAIN: the oldest buffered store to a write-back line its core holds modified and in L1D, with no upset, writes exactly its bytes of
the line and leaves the buffer; memory, other lines and other cores stay (R168, R230). -/
def Obligations.DrainWritesHeldLine : Prop :=
  ∀ (c : CoreId) (s : State) (e : SbEnt) (rest : List SbEnt) (y : L2Line),
    s.power.clocks = true → s.stalled = false → (s.core c).sb = e :: rest → e.kind = .bytes → e.mt = .wb →
    (regionAt e.pa).memory = true → e.pa % 64 + e.len ≤ 64 → tableLocked s = false →
    look (s.core c).l2 (e.pa / 64) = some y → y.st = .m → y.l1d = true →
    y.c.one = 0 → y.c.two = 0 → y.oneD = 0 → y.twoD = 0 → y.badI = false →
    ∃ t z, exec (.storeDrain c) s = .next t ∧ t.mem = s.mem ∧ (t.core c).sb = rest ∧
      look (t.core c).l2 (e.pa / 64) = some z ∧ z.st = .m ∧
      (∀ b, b < 64 → byteOf z.c.data b = if e.pa % 64 ≤ b ∧ b < e.pa % 64 + e.len then byteOf e.data (b - e.pa % 64) else byteOf y.c.data b) ∧
      (∀ l, l ≠ e.pa / 64 → look (t.core c).l2 l = look (s.core c).l2 l) ∧
      (t.core c).g = (s.core c).g ∧ (t.core c).v = (s.core c).v ∧ (t.core c).m = (s.core c).m ∧
      (∀ d, d ≠ c → t.core d = s.core d)

/-! ## Branches and jumps (chapter 03) -/

/-- A conditional branch goes to its target when its condition holds, through its slot when delayed, past an annulled slot; it writes
no general register (R97, R100).
Rests on choices of the model: log 52. -/
def Obligations.BranchesComplete : Prop :=
  ∀ (i : Instr) (c : CoreId) (d a : Bool) (off : W64) (cond : Core → Prop) (s : State), branchOf i = some (c, d, a, off, cond) →
    Ready s c i → ∀ taken : Bool, (taken = true ↔ cond ((fetched s c i).core c)) →
    ∃ t, exec i s = .next t ∧
      Ends (fetched s c i) t c (((fetched s c i).core c).branched taken d a (((fetched s c i).core c).pc + (off <<< 2)))

/-- JAL and JALR write the address after the jump, or after its slot, to gd as they retire and go to their target (R99). JALR whose
target has bits [1:0] not zero raises ALIGN before it retires: EPC holds the jump's address, EADDR the target, ESTATUS.DS is 0 and gd
is unchanged (R98). The return stack of R181 is prediction state. -/
def Obligations.JumpsComplete : Prop :=
  (∀ (c : CoreId) (rd : RegNo) (d : Bool) (off : BitVec 19) (s : State),
    let i : Instr := .jal c rd d off
    let k := (fetched s c i).core c
    Ready s c i → ∃ t p, exec i s = .next t ∧
      Ends (fetched s c i) t c ({ k.wg rd (k.pc + (if d then 8 else 4)) with pred := p }.branched true d false
        (k.pc + ((off.signExtend 64) <<< 2)))) ∧
  (∀ (c : CoreId) (rd ra : RegNo) (d : Bool) (imm : BitVec 13) (s : State),
    let i : Instr := .jalr c rd ra d imm
    let k := (fetched s c i).core c
    let tgt := k.gr ra + imm.signExtend 64
    Ready s c i →
    (tgt.toNat % 4 = 0 → ∃ t p, exec i s = .next t ∧
      Ends (fetched s c i) t c ({ k.wg rd (k.pc + (if d then 8 else 4)) with pred := p }.branched true d false tgt)) ∧
    (tgt.toNat % 4 ≠ 0 → ∃ t, exec i s = .next t ∧ TakenAt (fetched s c i) t c (Exc.plain 0x03 1 tgt 0) none ∧
      (let r (n : Nat) : W64 := (t.core c).crBase (crKey (0x100 * (t.core c).pl + n) (t.core c).secure)
       r 1 = k.pc ∧ r 4 = tgt ∧ bitAt (r 0) 5 = false ∧ (t.core c).g = k.g)))

/-! ## Control, ordering, invalidation (chapter 03) -/

/-- From PL1 up EI sets CR.STATUS.IE and DI clears it, each after every pending control register write has taken effect (R60, R68); an
interrupt eligible once EI has retired is entered, or held behind the access it must wait for, at the instruction after it (R68).
FENCE.I, and a FENCE with writes before it and accesses after it, drain the store buffer and retire; another FENCE only retires
(R72, R73, R112); CTLSYNC makes every pending write take effect, completes every TLB invalidation at every core, and starts a
clock switch where CLKSEL asks for one (R40, R60, R113); LD_SSB_REDO only counts. -/
def Obligations.ControlAndOrderingComplete : Prop :=
  (∀ (on : Bool) (c : CoreId) (s : State),
    let i : Instr := if on then .ei c else .di c
    let k := ((fetched s c i).core c).applyAll false
    let w := ((fetched s c i).setCore c { k with status := setBit k.status 3 on }).retire c
    Ready s c i → 1 ≤ ((fetched s c i).core c).pl →
    Ends (fetched s c i) w c { k with status := setBit k.status 3 on }.past ∧
    (on = false ∨ interruptReady w c = false → exec i s = .next w) ∧
    (on = true → interruptReady w c = true → exec i s = .next (takeInterrupt w c))) ∧
  (∀ (c : CoreId) (s : State),
    let w := drainAll (fetched s c (.fenceI c)) c
    Ready s c (.fenceI c) → w.stalled = false → ∃ t, exec (.fenceI c) s = .next t ∧ Ends w t c (w.core c).past) ∧
  (∀ (c : CoreId) (pr pw sr sw : Bool) (s : State),
    let i : Instr := .fence c pr pw sr sw
    let w := if pw ∧ (sr ∨ sw) then drainAll (fetched s c i) c else fetched s c i
    Ready s c i → w.stalled = false → ∃ t, exec i s = .next t ∧ Ends w t c (w.core c).past) ∧
  (∀ (c : CoreId) (s : State),
    let u := fetched s c (.ctlsync c)
    let acc (k : Core) : Core := { k with inbox := [], tlb := k.inbox.foldl (fun l q => l.filter (fun e => !q.hits e)) k.tlb,
                                          ptrs := k.inbox.foldl (fun l q => l.filter (fun e => !q.hitsPtr e)) k.ptrs }
    Ready s c (.ctlsync c) →
    ∃ t, exec (.ctlsync c) s = .next t ∧ t.around = u.around ∧ (∀ d, d ≠ c → t.core d = acc (u.core d)) ∧
      CountsOnly (fun _ => false) (clockSwitch u.power.pll ((acc (u.core c)).applyAll true)).past (t.core c)) ∧
  (∀ (c : CoreId) (s : State), ∃ t, exec (.ldSsbRedo c) s = .next t ∧ Ends s t c (s.core c))

/-- An XLINV of a core at its level drains the core's stores, removes what it names from the core's own TLB, and without L reaches
every other core's inbox; it writes no register (R108-R110). XLINV_ACCEPT removes what the oldest received operation names.
Rests on choices of the model: log 59. -/
def Obligations.TlbInvalidationComplete : Prop :=
  (∀ (i : Instr) (c : CoreId) (op : XlOp) (need : Nat) (ra rb : RegNo) (loc : Bool) (s : State),
    xlinvOf i = some (c, op, need, ra, rb, loc) → Ready s c i → need ≤ ((fetched s c i).core c).pl →
    let w := drainAll (fetched s c i) c
    let q : XlReq := ⟨op, (w.core c).gr ra, (w.core c).gr rb, (w.core c).secure, fld ((w.core c).crBase 0x221) 0 16⟩
    w.stalled = false →
    ∃ t, exec i s = .next t ∧ t.around = w.around ∧
      CountsOnly (fun _ => false) { w.core c with tlb := (w.core c).tlb.filter (fun e => !q.hits e),
                                                  ptrs := (w.core c).ptrs.filter (fun e => !q.hitsPtr e) }.past (t.core c) ∧
      (∀ d, d ≠ c → (look w.cores d).isSome = true →
        t.core d = if loc then w.core d else { w.core d with inbox := (w.core d).inbox ++ [q] })) ∧
  (∀ (c : CoreId) (s : State) (q : XlReq) (rest : List XlReq), s.frozen = false → (s.core c).inbox = q :: rest →
    ∃ t, exec (.xlinvAccept c) s = .next t ∧ t.around = s.around ∧ (∀ d, d ≠ c → t.core d = s.core d) ∧
      t.core c = { s.core c with inbox := rest, tlb := (s.core c).tlb.filter (fun e => !q.hits e),
                                  ptrs := (s.core c).ptrs.filter (fun e => !q.hitsPtr e) })

/-! ## Control registers (chapter 02) -/

/-- CRR of an assigned register at a level that may read it writes gd with the value most recently written in program order, those of
CR.FENV, CR.DRM and CR.VRESUME after the vector queue; CRW records its write; a number with no register raises ILLEGAL and too low a level PRIV, naming the level needed (R54, R59, R62). CRW of
CR.IEOI ends the core's interrupt and CRW of CR.VCPU makes a virtual CPU resident, whichever row the write came by (R454, R459).
Rests on choices of the model: log 20, log 55. -/
def Obligations.ControlRegisterAccess : Prop :=
  (∀ (c : CoreId) (r : RegNo) (n : BitVec 12) (s : State),
    let rd : Instr := .crr c r n
    let wr : Instr := .crw c n r
    let u := fetched s c rd
    let w := fetched s c wr
    (Ready s c rd →
      (∀ lv, crLevel n.toNat = some lv → crNeeds u c n.toNat lv false = none →
        let q := if n = 2 ∨ n = 3 ∨ n = 6 then u.setCore c { u.core c with vq := [] } else u
        ∃ t, exec rd s = .next t ∧ Ends u t c ((crReadEffect n.toNat (q.core c)).wg r (crRead q c n.toNat)).past) ∧
      (crLevel n.toNat = none → ∃ t, exec rd s = .next t ∧ TakenAt u t c (Exc.plain 0x01 1 ((wordOf rd).setWidth 64) 0) none) ∧
      (∀ lv need, crLevel n.toNat = some lv → crNeeds u c n.toNat lv false = some need →
        ∃ t, exec rd s = .next t ∧ TakenAt u t c (privExc (u.core c) (wordOf rd) need) none)) ∧
    (Ready s c wr →
      (∀ lv, crLevel n.toNat = some lv → crNeeds w c n.toNat lv true = none → n.toNat ≠ 0x44 → n.toNat ≠ 0x45 →
        ∃ t, exec wr s = .next t ∧ Ends w t c (((w.core c).crWrite w.free n.toNat ((w.core c).gr r)).past)) ∧
      (crLevel n.toNat = none → ∃ t, exec wr s = .next t ∧ TakenAt w t c (Exc.plain 0x01 1 ((wordOf wr).setWidth 64) 0) none) ∧
      (∀ lv need, crLevel n.toNat = some lv → crNeeds w c n.toNat lv true = some need →
        ∃ t, exec wr s = .next t ∧ TakenAt w t c (privExc (w.core c) (wordOf wr) need) none))) ∧
  (∀ (i : Instr) (c : CoreId) (n : BitVec 12) (r : RegNo) (s : State),
    (i = .ieoi c r ∧ n = 0x44) ∨ (i = .vcpuWrite c r ∧ n = 0x45) ∨ (i = .crw c n r ∧ (n = 0x44 ∨ n = 0x45)) → Ready s c i →
    let u := fetched s c i
    let v := (u.core c).gr r
    let q := u.onCore c (fun k => k.crWrite u.free n.toNat v)
    let w := if n = 0x44 then endInterrupt q c (fld v 0 12) else setResident q c (if bitAt v 15 then some (fld v 0 12) else none)
    ∀ lv, crLevel n.toNat = some lv → crNeeds u c n.toNat lv true = none → w.stalled = false →
      ∃ t, exec i s = .next t ∧ Ends w t c (w.core c).past)

/-- A class D write takes effect from the eighth position on; before, each instruction sees the old or the new value whole (R57). A class S
write is held: no instruction before the next CTLSYNC sees it, that CTLSYNC makes every pending write take effect together, and writes
of one register keep the latest (R58). The registers 0x100-0x13F of the current world's bank are read, written and used; those of the
other world's are neither visible nor affected (R53). -/
def Obligations.ControlRegisterClasses : Prop :=
  (∀ (k : Core) (n use : Nat) (v new : W64) (d : CrDef) (j : Nat),
    n ≠ 0 → n ≠ 0xA1 → crAt n = some d → d.cls = .d → k.pendD = [] →
    new = crWritten k d n (k.crBase (crKey n k.secure)) v →
    let after := (List.range j).foldl (fun q _ => q.position) (k.crWrite use n v)
    (j < 8 → after.crEff (crKey n k.secure) = k.crBase (crKey n k.secure) ∨ after.crEff (crKey n k.secure) = new) ∧
    (8 ≤ j → after.crEff (crKey n k.secure) = new) ∧
    (∀ m, m ≠ crKey n k.secure → after.crBase m = k.crBase m)) ∧
  (∀ (k : Core) (n use : Nat) (v new : W64) (d : CrDef),
    crAt n = some d → d.cls = .s → n ≠ 0 → k.pendD = [] → new = crWritten k d n (k.crLast (crKey n k.secure)) v →
    let w := k.crWrite use n v
    (∀ j m, ((List.range j).foldl (fun q _ => q.position) w).crEff m = k.crEff m) ∧
    w.crLast (crKey n k.secure) = new ∧
    (if n = 0x211 then bitAt ((w.applyAll true).crBase n) 0 = bitAt new 0
      else (w.applyAll true).crBase (crKey n k.secure) = new) ∧
    (∀ m, m ≠ crKey n k.secure → (w.applyAll true).crBase m = (k.applyAll true).crBase m)) ∧
  (∀ (c : CoreId) (s : State), Ready s c (.ctlsync c) →
    ∃ t, exec (.ctlsync c) s = .next t ∧ (t.core c).pendS = [] ∧
      ∀ m, counterKey m = false → (t.core c).crBase m = (((fetched s c (.ctlsync c)).core c).applyAll true).crBase m) ∧
  (∀ (k : Core) (n use : Nat) (v : W64), 0x100 ≤ n → n < 0x140 →
    let w := k.crWrite use n v
    ∀ m, 0x100 ≤ m → m < 0x140 → let o := crKey m (!k.secure)
      w.crEff o = k.crEff o ∧ w.crLast o = k.crLast o ∧ (w.applyAll true).crBase o = (k.applyAll true).crBase o) ∧
  (∀ (s : State) (c n : Nat), 0x100 ≤ n → n < 0x140 →
    let k := s.core c
    s.cr c n = k.crEff (crKey n k.secure) ∧
    setBit (crRead s c n) 63 false = setBit (k.crLast (crKey n k.secure)) 63 false ∧
    (n < 0x130 → crRead s c n = k.crLast (crKey n k.secure)))

/-! ## Exceptions (chapter 02) -/

/-- Entry at level t: pending writes take effect; ESTATUS, EPC, ENPC, ECAUSE and EADDR of the level are written, EIPA at PL2;
STATUS names the level, with IE and UOPEN clear, and SEC set at PL3; the core continues at EVEC plus the offset of the entry; general,
vector and mask registers stay (R61, R64). -/
def Obligations.ExceptionEntry : Prop :=
  ∀ (k : Core) (t orig : Nat) (e : Exc) (kind : Option Nat), 1 ≤ t → t ≤ 3 → (t = 2 → k.secure = false) →
    let a := k.applyAll false
    let sec := t == 3 || k.secure
    let r (n : Nat) : Nat := crKey (0x100 * t + n) sec
    let ds := k.slot.isSome && !e.nextPc
    let q := k.enter t orig e kind
    q.crBase (r 0) = setBit (setBit k.status 4 (bitAt a.status 4)) 5 ds ∧
    q.crBase (r 1) = (if e.nextPc then (match k.slot with | some x => x | none => k.pc + 4) else k.pc) ∧
    q.crBase (r 2) = (if ds then k.slot.getD 0 else 0) ∧
    q.crBase (r 3) = ecause e k.pl k.secure orig ∧
    q.crBase (r 4) = e.eaddr ∧
    (t = 2 → q.crBase 0x207 = e.eipa) ∧
    q.pl = t ∧ q.ie = false ∧ bitAt q.status 4 = false ∧ q.secure = sec ∧
    q.pc = (a.crBase (r 5) &&& ~~~0xFFF#64) +
      BitVec.ofNat 64 (match kind with | some x => x | none => if t = k.pl ∧ sec = k.secure then 0 else 0x200) ∧
    q.slot = none ∧ q.pendD = [] ∧ q.g = k.g ∧ q.v = k.v ∧ q.m = k.m

/-- SVC at PL0, HVC from normal PL1 or PL2, GATE from PL1 up and BREAK without effective debug raise their exceptions with the
immediate as DETAIL, the first three restarting at the next instruction; elsewhere SVC and HVC are ILLEGAL; BREAK under effective
invasive debug halts past itself; an unassigned word is ILLEGAL (R61, R62, R82, R118, R344).
Rests on choices of the model: log 19. -/
def Obligations.CallsTakeExceptions : Prop :=
  ∀ (c : CoreId) (imm : W16) (s : State),
    (let i : Instr := .svc c imm
     let u := fetched s c i
     Ready s c i →
      ((u.core c).pl = 0 → ∃ t, exec i s = .next t ∧ TakenAt u t c { Exc.plain 0x21 1 0 imm.toNat with nextPc := true } none) ∧
      ((u.core c).pl ≠ 0 → ∃ t, exec i s = .next t ∧ TakenAt u t c (Exc.plain 0x01 1 ((wordOf i).setWidth 64) 0) none)) ∧
    (let i : Instr := .hvc c imm
     let u := fetched s c i
     Ready s c i → 1 ≤ (u.core c).pl → (u.core c).slot = none →
      ((u.core c).secure = false → ∃ t, exec i s = .next t ∧ TakenAt u t c { Exc.plain 0x22 2 0 imm.toNat with nextPc := true } none) ∧
      ((u.core c).secure = true → ∃ t, exec i s = .next t ∧ TakenAt u t c (Exc.plain 0x01 1 ((wordOf i).setWidth 64) 0) none)) ∧
    (let i : Instr := .gate c imm
     let u := fetched s c i
     Ready s c i → 1 ≤ (u.core c).pl → (u.core c).slot = none →
      ∃ t, exec i s = .next t ∧ TakenAt u t c { Exc.plain 0x20 3 0 imm.toNat with nextPc := true } (some 0x600) ∧ (t.core c).pl = 3) ∧
    (let i : Instr := .brk c imm
     let u := fetched s c i
     Ready s c i →
      (invasive u c = false → ∃ t, exec i s = .next t ∧ TakenAt u t c (Exc.plain 0x23 1 0 imm.toNat) none) ∧
      (invasive u c = true → ∃ t, exec i s = .next t ∧ Ends u t c { (u.core c).past with run := .halted })) ∧
    (∀ w : W32, s.active c = true → preempted s c (.unassignedEncoding c w) = false →
      (fetched s c (.unassignedEncoding c w)).stalled = false → assigned w = false →
      (fetch ((releaseWait s c).onCore c (fun k => { k.position.useCtx with vecStop := false })) c).2 = none →
      ∃ t, exec (.unassignedEncoding c w) s = .next t ∧
        TakenAt (fetched s c (.unassignedEncoding c w)) t c (Exc.plain 0x01 1 (w.setWidth 64) 0) none)

/-- A privileged instruction at too low a level raises PRIV, with the instruction word as EADDR and the level needed as DETAIL, and has
none of its own effect (R62, R124). At its level, an ERET, GATE, GATE.RET or HVC in a delay slot raises ILLEGAL (R101, R124); an
instruction whose fetch or first checks fail takes the exception of the first that fails (R67).
Rests on choices of the model: log 55, log 56. -/
def Obligations.PrivilegedInstructionsTrap : Prop :=
  (∀ (i : Instr) (c : CoreId) (need : Nat) (s : State), instrLevel i = some (c, need) → Ready s c i →
    (((fetched s c i).core c).pl < need →
      ∃ t, exec i s = .next t ∧ TakenAt (fetched s c i) t c (privExc ((fetched s c i).core c) (wordOf i) need) none) ∧
    (need ≤ ((fetched s c i).core c).pl → slotLevelled i = true → ((fetched s c i).core c).slot.isSome = true →
      ∃ t, exec i s = .next t ∧ TakenAt (fetched s c i) t c (Exc.plain 0x01 1 ((wordOf i).setWidth 64) 0) none)) ∧
  (∀ (i : Instr) (c : CoreId) (need : Nat) (e : Exc) (s : State), instrLevel i = some (c, need) → s.active c = true →
    preempted s c i = false → (checks s c i).2 = some e → e.code ≠ 0x20 → (fetched s c i).stalled = false →
    ∃ t, exec i s = .next t ∧ TakenAt (fetched s c i) t c e none)

/-- ERET at level t resumes at EPC, its low two bits taken as zero, with STATUS from ESTATUS, its delay slot pending when DS is 1; where ESTATUS names no level it may
return to it, or one of the other world, it raises ILLEGAL, and at PL0 PRIV (R65). GATE.RET enters the normal world scrubbed: g1-g3 and g12-g31, every vector and mask register and the
vector configuration are at reset, the sticky flags clear, g4-g11 and the normal-bank registers as the monitor left them (R119, R338).
Rests on choices of the model: log 84. -/
def Obligations.ReturnsFromExceptions : Prop :=
  (∀ (c : CoreId) (s : State),
    let u := fetched s c (.eret c)
    let k := (u.core c).applyAll false
    let r (n : Nat) : Nat := crKey (0x100 * k.pl + n) k.secure
    let st := k.crBase (r 0)
    Ready s c (.eret c) → 1 ≤ k.pl → k.slot = none →
    (fld st 0 2 ≤ k.pl → bitAt st 2 = k.secure → (fld st 0 2 = 2 → bitAt st 2 = false) → (fld st 0 2 = 3 → bitAt st 2 = true) →
      ∃ t p, exec (.eret c) s = .next t ∧ Ends u t c { k with
        status := st, pc := k.crBase (r 1) &&& ~~~3#64,
        slot := if bitAt st 5 then some (k.crBase (r 2) &&& ~~~3#64) else none, pred := p }) ∧
    (k.pl < fld st 0 2 ∨ bitAt st 2 ≠ k.secure ∨ (fld st 0 2 = 2 ∧ bitAt st 2 = true) ∨ (fld st 0 2 = 3 ∧ bitAt st 2 = false) →
      ∃ t, exec (.eret c) s = .next t ∧ TakenAt u t c (Exc.plain 0x01 1 ((wordOf (.eret c)).setWidth 64) 0) none)) ∧
  (∀ (c : CoreId) (s : State), Ready s c (.eret c) → ((fetched s c (.eret c)).core c).pl = 0 →
    ∃ t, exec (.eret c) s = .next t ∧
      TakenAt (fetched s c (.eret c)) t c (privExc ((fetched s c (.eret c)).core c) (wordOf (.eret c)) 1) none) ∧
  (∀ (c : CoreId) (s : State),
    let u := fetched s c (.gateRet c)
    let k := (u.core c).applyAll false
    let st := k.crBase 0x300
    Ready s c (.gateRet c) → k.pl = 3 → k.secure = true → k.slot = none → bitAt st 2 = false → fld st 0 2 ≠ 3 →
    ∃ t, exec (.gateRet c) s = .next t ∧ t.around = u.around ∧ (∀ d, d ≠ c → t.core d = u.core d) ∧
      (∀ r : RegNo, (t.core c).gr r = if 4 ≤ r.toNat ∧ r.toNat ≤ 11 then (u.core c).gr r else 0) ∧
      (∀ r, (t.core c).vr r = 0) ∧ (∀ r, (t.core c).mr r = 0) ∧
      (t.core c).crBase 4 = crReset 4 ∧ (t.core c).crBase 5 = crReset 5 ∧ (t.core c).crBase 6 = crReset 6 ∧
      fld ((t.core c).crBase 2) 8 5 = 0 ∧ fld ((t.core c).crBase 2) 0 8 = fld (k.crBase 2) 0 8 ∧
      fld ((t.core c).crBase 3) 8 5 = 0 ∧ fld ((t.core c).crBase 3) 0 8 = fld (k.crBase 3) 0 8 ∧
      (∀ n, 0x100 ≤ n → n < 0x140 → (t.core c).crBase n = k.crBase n) ∧
      (t.core c).pl = fld st 0 2 ∧ (t.core c).secure = false ∧ (t.core c).pc = k.crBase 0x301 &&& ~~~3#64 ∧ (t.core c).pred = Pred.empty)

/-! ## Waiting, sleeping, debug (chapters 03, 11, 14) -/

/-- WAIT from PL1 up (PL2 where TWAIT forbids normal PL1) retires where an interrupt is pending or its deadline is reached, and else
waits; WAIT_END ends such a wait; DEBUG_HALT_REQUEST halts a running core under effective invasive debug and DEBUG_RESUME resumes it
(R115, R117, R344). A DEBUG_ACCESS of a halted core reads or writes an on-chip register with PRIV 7 and the core's own world and
owner, or writes at the home of the line; a misaligned one does nothing (R344).
Rests on choices of the model: log 18. -/
def Obligations.WaitAndDebugComplete : Prop :=
  (∀ (c : CoreId) (ra : RegNo) (s : State),
    let i : Instr := .wait c ra
    let u := fetched s c i
    let d := (u.core c).gr ra
    Ready s c i → (u.core c).slot = none → 1 ≤ (u.core c).pl →
    ¬ ((u.core c).pl = 1 ∧ (u.core c).secure = false ∧ bitAt ((u.core c).crBase 0x210) 1 = true) →
    (wakePending u c = true ∨ (d ≠ 0 ∧ d.toNat ≤ u.coreTime) → ∃ t, exec i s = .next t ∧ Ends u t c (u.core c).past) ∧
    (wakePending u c = false → (d = 0 ∨ u.coreTime < d.toNat) →
      ∃ t, exec i s = .next t ∧ Ends u t c { u.core c with run := .waiting d })) ∧
  (∀ (c : CoreId) (s : State) (d : W64), (s.core c).run = .waiting d → s.power.clocks = true →
    wakePending s c = true ∨ (d ≠ 0 ∧ d.toNat ≤ s.coreTime) →
    ∃ t, exec (.waitEnd c) s = .next t ∧ Ends s t c { s.core c with run := .running }.past) ∧
  (∀ (c : CoreId) (s : State), s.active c = true → invasive s c = true →
    exec (.debugHaltRequest c) s = .next (s.setCore c { s.core c with run := .halted })) ∧
  (∀ (c : CoreId) (s : State), s.frozen = false → (s.core c).run = .halted →
    exec (.debugResume c) s = .next (s.setCore c { s.core c with run := .running })) ∧
  (∀ (c : CoreId) (addr : Pa) (wd : Width) (v : W64) (s : State), (s.core c).run = .halted → s.stalled = false → s.frozen = false →
    let x : Attr := { coreAttr s c with priv := 7 }
    let len := widthBytes wd
    (addr.toNat % len ≠ 0 → ∀ w, exec (.debugAccess c addr wd w v) s = .next s) ∧
    (addr.toNat % len = 0 → regionAt addr.toNat = .regs → (regWrite s addr.toNat len v x).stalled = false →
      exec (.debugAccess c addr wd true v) s = .next (regWrite s addr.toNat len v x)) ∧
    (addr.toNat % len = 0 → regionAt addr.toNat = .regs → (regRead s addr.toNat len x).1.stalled = false →
      exec (.debugAccess c addr wd false v) s = .next (regRead s addr.toNat len x).1) ∧
    (addr.toNat % len = 0 → (regionAt addr.toNat).memory = true → ∀ u r,
      homeWrite (chargeAccess s (c.toNat / 2) (addr.toNat / 64) (qosOf s c)) (addr.toNat / 64) (s.core c).secure (s.core c).owner.toNat (((sliceBytes v 0 len).setWidth 512) <<< (8 * (addr.toNat % 64)))
        (enables (addr.toNat % 64) len) 0 = (u, r) → u.stalled = false →
      exec (.debugAccess c addr wd true v) s = .next u))

/-- A SLEEP that passes its checks, with no interrupt pending and no held step, enters Ajar, or goes through its steps into Latched or
Closed; a refused one writes 2 to gd and goes on. A wake event before the point of no return abandons an entry, which ends with 1;
CORE_WAKE resumes a sleeping core with 0. Each of the last three goes on after the SLEEP, every other register as it was; a refusal
changes no other core and no memory (R116, R417-R421, R425).
Rests on choices of the model: log 15, log 27. -/
def Obligations.SleepAndWakeComplete : Prop :=
  (∀ (i : Instr) (c : CoreId) (rd : RegNo) (level : Nat) (s : State),
    (i = .sleepAjar c rd none ∧ level = 0) ∨ (i = .sleepLatched c rd none ∧ level = 1) ∨ (i = .sleepClosed c rd none ∧ level = 2) →
    Ready s c i →
    let u := fetched s c i
    (u.core c).slot = none → 1 ≤ (u.core c).pl →
    ¬ ((u.core c).pl = 1 ∧ (u.core c).secure = false ∧ bitAt ((u.core c).crBase 0x210) 1 = true) →
    interruptReady u c = false →
    (∀ r, sleepRefuser u c level = some r → ∃ t, exec i s = .next t ∧ (t.core c).run = .running ∧ (rd ≠ 0 → (t.core c).gr rd = 2) ∧
      SameRegs ((u.core c).wg rd 2).past (t.core c) ∧ (∀ d, d ≠ c → t.core d = u.core d) ∧ t.mem = u.mem) ∧
    (sleepRefuser u c level = none → wakePending u.useFree c = false → askedState u c level = level →
      (entrySteps u.useFree c level 2).stalled = false →
      ∃ t, exec i s = .next t ∧ ((t.core c).run = match level with | 0 => .ajar rd | 1 => .latched rd | _ => .closed rd) ∧
        (t.core c).pc = (u.core c).pc ∧ (t.core c).g = (u.core c).g ∧ (t.core c).v = (u.core c).v ∧ (t.core c).m = (u.core c).m)) ∧
  (∀ (c : CoreId) (s : State) (a k : Nat) (rd : RegNo), (s.core c).run = .entering a k rd → wakePending s c = true → s.frozen = false →
    (undoEntry s c k).stalled = false →
    ∃ t, exec (.entryAbort c none) s = .next t ∧ (t.core c).run = .running ∧ (rd ≠ 0 → (t.core c).gr rd = 1) ∧
      SameRegs ((s.core c).wg rd 1).past (t.core c) ∧ (k ≤ 6 → (∀ d, d ≠ c → t.core d = s.core d) ∧ t.mem = s.mem)) ∧
  (∀ (c : CoreId) (s : State) (rd : RegNo),
    ((s.core c).run = .ajar rd ∨ (s.core c).run = .latched rd ∨ (s.core c).run = .closed rd) → (s.core c).started = true →
    wakePending s c = true → s.power.clocks = true →
    ∃ t, exec (.coreWake c) s = .next t ∧ (t.core c).run = .running ∧ (rd ≠ 0 → (t.core c).gr rd = 0) ∧
      SameRegs ((s.core c).wg rd 0).past (t.core c) ∧ t.mem = s.mem)

/-! ## Vector and floating-point instructions (chapter 04) -/

/-- The three forms of VCONF write CR.VCFG with their configuration, CR.VLEN with the length each form gives and gd with the same
length, at once (R126, R127). -/
def Obligations.VconfCompletes : Prop :=
  ∀ (i : Instr) (c : CoreId) (rd : RegNo) (cfg : BitVec 7) (s : State) (n : Nat),
    let k := (fetched s c i).core c
    let max := vlmaxOf (cfg.setWidth 64)
    ((∃ ra, i = .vconf c rd ra cfg ∧ n = min (k.gr ra).toNat max) ∨ (i = .vconfMax c rd cfg ∧ n = max) ∨
      (i = .vconfKeep c rd cfg ∧ n = min (fld (k.crEff 5) 0 10) max)) →
    Ready s c i →
    ∃ t, exec i s = .next t ∧
      Ends (fetched s c i) t c ((((k.crNow 4 (cfg.setWidth 64)).crNow 5 (BitVec.ofNat 64 n)).wg rd (BitVec.ofNat 64 n)).past)

/-- An element-wise integer instruction with VL not 0 computes every active element from VRESUME.ELEM up, and leaves or zeroes the
others by their class; with VL 0 it writes nothing and retires (R128-R130, R139, R155). -/
def Obligations.VectorIntegerCompletes : Prop :=
  ∀ (i : Instr) (c : CoreId) (f : VF) (op : (n : Nat) → BitVec n → BitVec n → BitVec n) (s : State),
    vintOf i = some (c, f, op) → Ready s c i →
    let u := fetched s c i
    let k := u.core c
    let x := vctx u c
    vGroups x f true = true → (x.vl = 0 → ∃ t, exec i s = .next t ∧ VecNothing u t c) ∧ (x.vl ≠ 0 →
    ∃ t, exec i s = .next t ∧ VecRetired (fun _ => false) u t c k.g ∧ (t.core c).m = k.m ∧
      GroupAfter x x.sew f.vd.toNat x.vlmax x.elem (k.selects f.m f.msk)
        (fun e => (op x.sew (BitVec.ofNat x.sew (k.velem x.sew f.va.toNat e)) (BitVec.ofNat x.sew (vopB k x f e))).toNat) k (t.core c))

/-- VBLEND chooses by the mask bit below VL; VINDEX writes element numbers, of which 8-bit elements hold the low bits; VINSERT writes
element 0 and treats the others as tail; with VL 0 these three write nothing (R130). MSK.COUNT, MSK.FIRST and VEXTRACT, not stopped
by an interrupt, write their result to gd and no vector register (R139, R140).
Rests on choices of the model: log 87. -/
def Obligations.VectorMovesComplete : Prop :=
  (∀ (c : CoreId) (f : VF) (s : State),
    (let i : Instr := .vblend c f
     let u := fetched s c i
     let k := u.core c
     let x := vctx u c
     Ready s c i → vGroups x f true = true → (x.vl = 0 → ∃ t, exec i s = .next t ∧ VecNothing u t c) ∧ (x.vl ≠ 0 →
      ∃ t, exec i s = .next t ∧ VecRetired (fun _ => false) u t c k.g ∧ (t.core c).m = k.m ∧
        GroupAfter x x.sew f.vd.toNat x.vlmax x.elem (fun _ => true)
          (fun e => if bitAt (k.mr f.msk) e then vopB k x f e else k.velem x.sew f.va.toNat e) k (t.core c))) ∧
    (let i : Instr := .vindex c f
     let u := fetched s c i
     let k := u.core c
     let x := vctx u c
     Ready s c i → x.groups [f.vd] = true → (x.vl = 0 → ∃ t, exec i s = .next t ∧ VecNothing u t c) ∧ (x.vl ≠ 0 →
      ∃ t, exec i s = .next t ∧ VecRetired (fun _ => false) u t c k.g ∧ (t.core c).m = k.m ∧
        GroupAfter x x.sew f.vd.toNat x.vlmax x.elem (k.selects f.m f.msk) (fun e => e) k (t.core c))) ∧
    (let i : Instr := .vinsert c f
     let u := fetched s c i
     let k := u.core c
     let x := vctx u c
     Ready s c i → x.groups [f.vd] = true → (x.vl = 0 → ∃ t, exec i s = .next t ∧ VecNothing u t c) ∧ (x.vl ≠ 0 →
      ∃ t, exec i s = .next t ∧ VecRetired (fun _ => false) u t c k.g ∧ (t.core c).m = k.m ∧
        GroupAfter { x with vl := 1 } x.sew f.vd.toNat x.vlmax x.elem (k.selects f.m f.msk) (fun _ => (k.gr f.va).toNat) k (t.core c)))) ∧
  (∀ (c : CoreId) (f : VF) (s : State), f.stop = none →
    (let i : Instr := .mskCount c f
     let u := fetched s c i
     let k := u.core c
     let hits := (List.range (vctx u c).vl).filter (fun e => k.selects f.m f.msk e && bitAt (k.mr (f.va.setWidth 3)) e)
     Ready s c i → ∃ t, exec i s = .next t ∧ VecRetired (fun _ => false) u t c (k.wg f.vd (BitVec.ofNat 64 hits.length)).g ∧
       (t.core c).v = k.v ∧ (t.core c).m = k.m) ∧
    (let i : Instr := .mskFirst c f
     let u := fetched s c i
     let k := u.core c
     let hits := (List.range (vctx u c).vl).filter (fun e => k.selects f.m f.msk e && bitAt (k.mr (f.va.setWidth 3)) e)
     Ready s c i → ∃ t, exec i s = .next t ∧
       VecRetired (fun _ => false) u t c (k.wg f.vd (match hits with | [] => -1 | e :: _ => BitVec.ofNat 64 e)).g ∧
       (t.core c).v = k.v ∧ (t.core c).m = k.m) ∧
    (let i : Instr := .vextract c f
     let u := fetched s c i
     let k := u.core c
     let x := vctx u c
     Ready s c i → x.groups [f.va] = true → ∃ t, exec i s = .next t ∧
       VecRetired (fun _ => false) u t c (k.wg f.vd (sx x.sew (BitVec.ofNat 64 (k.velem x.sew f.va.toNat 0)))).g ∧
       (t.core c).v = k.v ∧ (t.core c).m = k.m))

/-- Integer compares, functions of masks, and floating-point and decimal compares with no trap enabled write the bits of their destination
mask register by class, up to bit 511, and no vector register; conditions join FLAGS (R131, R139, R140, R143, R144). With VL 0 nothing
is written and no condition raised (R130).
Rests on choices of the model: log 11. -/
def Obligations.VectorMaskResultsComplete : Prop :=
  (∀ (i : Instr) (c : CoreId) (f : VF) (rel : (n : Nat) → BitVec n → BitVec n → Prop) (s : State),
    vcmpOf i = some (c, f, rel) → Ready s c i →
    let u := fetched s c i
    let k := u.core c
    let x := vctx u c
    vGroups x f false = true → (x.vl = 0 → ∃ t, exec i s = .next t ∧ VecNothing u t c) ∧ (x.vl ≠ 0 → ∀ val : Nat → Bool,
    (∀ e, val e = true ↔ rel x.sew (BitVec.ofNat x.sew (k.velem x.sew f.va.toNat e)) (BitVec.ofNat x.sew (vopB k x f e))) →
    ∃ t, exec i s = .next t ∧ VecRetired (fun _ => false) u t c k.g ∧ (t.core c).v = k.v ∧
      MaskAfter x (f.vd.setWidth 3) x.elem (k.selects f.m f.msk) val k (t.core c))) ∧
  (∀ (i : Instr) (c : CoreId) (f : VF) (op : Bool → Bool → Bool) (s : State),
    mskOf i = some (c, f, op) → Ready s c i →
    let u := fetched s c i
    let k := u.core c
    let x := vctx u c
    (x.vl = 0 → ∃ t, exec i s = .next t ∧ VecNothing u t c) ∧ (x.vl ≠ 0 →
    ∃ t, exec i s = .next t ∧ VecRetired (fun _ => false) u t c k.g ∧ (t.core c).v = k.v ∧
      MaskAfter x (f.vd.setWidth 3) x.elem (k.selects f.m f.msk)
        (fun e => op (bitAt (k.mr (f.va.setWidth 3)) e) (bitAt (k.mr (f.vb.setWidth 3)) e)) k (t.core c))) ∧
  (∀ (i : Instr) (c : CoreId) (f : VF) (rel : Nat) (s : State) (ft : Fmt), vfcmpOf i = some (c, f, rel) → Ready s c i →
    let u := fetched s c i
    let k := u.core c
    let x := vctx u c
    x.fmt = some ft → vfGroups x f false = true → (x.vl = 0 → ∃ t, exec i s = .next t ∧ VecNothing u t c) ∧
    (x.vl ≠ 0 → envTe k fenvKey = 0 →
    let used := (span x.elem x.vl).filter (k.selects f.m f.msk)
    let r (e : Nat) : Bool × Conds := fpRel ft rel (k.velem x.sew f.va.toNat e) (vfB k x f e)
    ∃ t, exec i s = .next t ∧ VecRetired (fun n => n == fenvKey) u t c k.g ∧ (t.core c).v = k.v ∧
      (t.core c).crBase fenvKey = k.crBase fenvKey ||| ((flagsOf (joinConds (used.map (fun e => (r e).2)))).setWidth 64 <<< 8) ∧
      MaskAfter x (f.vd.setWidth 3) x.elem (k.selects f.m f.msk)
        (fun e => (r e).1) k (t.core c))) ∧
  (∀ (i : Instr) (c : CoreId) (big : Bool) (f : VF) (rel : Nat) (s : State), vdcmpOf i = some (c, big, f, rel) → Ready s c i →
    let u := fetched s c i
    let k := u.core c
    let x := vctx u c
    let w := if big then 128 else 64
    decOk x big false f = true → (x.vl = 0 → ∃ t, exec i s = .next t ∧ VecNothing u t c) ∧ (x.vl ≠ 0 → envTe k drmKey = 0 →
    let used := (span x.elem x.vl).filter (k.selects f.m f.msk)
    let r (e : Nat) : Bool × Conds := decRel (dfmt big) rel (k.velem w f.va.toNat e) (k.velem w f.vb.toNat e)
    ∃ t, exec i s = .next t ∧ VecRetired (fun n => n == drmKey) u t c k.g ∧ (t.core c).v = k.v ∧
      (t.core c).crBase drmKey = k.crBase drmKey ||| ((flagsOf (joinConds (used.map (fun e => (r e).2)))).setWidth 64 <<< 8) ∧
      MaskAfter x (f.vd.setWidth 3) x.elem (k.selects f.m f.msk)
        (fun e => (r e).1) k (t.core c)))

/-- The permuting instructions, indivisible, write every element from 0 by class; VPACK moves the selected elements down and zeroes the
rest; 8-bit elements hold the low bits of a VPREFIX count (R140, R157). With VL 0 they write nothing (R130).
Rests on choices of the model: log 87. -/
def Obligations.VectorPermutesComplete : Prop :=
  ∀ (i : Instr) (c : CoreId) (f : VF) (s : State), Ready s c i →
    let u := fetched s c i
    let k := u.core c
    let x := vctx u c
    let apart := x.groups [f.vd, f.va] = true ∧ f.vd ≠ f.va
    ∀ (act : Nat → Bool) (val : Nat → Nat),
    ((i = .vprefix c f ∧ x.groups [f.vd] = true ∧ act = k.selects f.m f.msk ∧
        val = fun e => ((List.range (e + 1)).filter (fun j => bitAt (k.mr (f.va.setWidth 3)) j)).length) ∨
     (i = .vshiftup c f ∧ apart ∧ act = k.selects f.m f.msk ∧
        val = fun e => if (k.gr f.vb).toNat ≤ e then k.velem x.sew f.va.toNat (e - (k.gr f.vb).toNat) else 0) ∨
     (i = .vshiftdn c f ∧ apart ∧ act = k.selects f.m f.msk ∧
        val = fun e => if e + (k.gr f.vb).toNat < x.vl then k.velem x.sew f.va.toNat (e + (k.gr f.vb).toNat) else 0) ∨
     (i = .vperm c f ∧ apart ∧ act = k.selects f.m f.msk ∧ x.groups [f.vb] = true ∧ f.vd ≠ f.vb ∧
        val = fun e => k.velem x.sew f.va.toNat (k.velem x.sew f.vb.toNat e % x.vlmax)) ∨
     (i = .vpack c f ∧ apart ∧ act = (fun _ => true) ∧
        val = fun e => match ((List.range x.vl).filter (fun j => bitAt (k.mr (f.vb.setWidth 3)) j))[e]? with
          | some j => k.velem x.sew f.va.toNat j
          | none => 0)) →
    (x.vl = 0 → ∃ t, exec i s = .next t ∧ VecNothing u t c) ∧
    (x.vl ≠ 0 → ∃ t, exec i s = .next t ∧ VecRetired (fun _ => false) u t c k.g ∧ (t.core c).m = k.m ∧
      GroupAfter x x.sew f.vd.toNat x.vlmax 0 act val k (t.core c))

/-- A reduction combines element 0 of vb with every active element of va in ascending order into element 0 of vd, and treats the others
as tail; with no trap enabled a floating-point one adds its conditions to FLAGS (R141, R157). VDOT4 adds four byte products to each
active 32-bit element (R142). With VL 0 they write nothing and raise no condition (R130).
Rests on choices of the model: log 11. -/
def Obligations.ReductionsComplete : Prop :=
  (∀ (i : Instr) (c : CoreId) (f : VF) (op : (n : Nat) → BitVec n → BitVec n → BitVec n) (s : State),
    vredOf i = some (c, f, op) → Ready s c i →
    let u := fetched s c i
    let k := u.core c
    let x := vctx u c
    x.groups [f.vd, f.va, f.vb] = true → (x.vl = 0 → ∃ t, exec i s = .next t ∧ VecNothing u t c) ∧ (x.vl ≠ 0 →
    let r := ((List.range x.vl).filter (k.selects f.m f.msk)).foldl
      (fun acc e => op x.sew acc (BitVec.ofNat x.sew (k.velem x.sew f.va.toNat e))) (BitVec.ofNat x.sew (k.velem x.sew f.vb.toNat 0))
    ∃ t, exec i s = .next t ∧ VecRetired (fun _ => false) u t c k.g ∧ (t.core c).m = k.m ∧
      GroupAfter { x with vl := 1 } x.sew f.vd.toNat x.vlmax 0 (fun _ => true) (fun _ => r.toNat) k (t.core c))) ∧
  (∀ (i : Instr) (c : CoreId) (f : VF) (op : Fmt → Nat → Nat → Nat → Nat × Conds) (s : State) (ft : Fmt),
    vfredOf i = some (c, f, op) → Ready s c i →
    let u := fetched s c i
    let k := u.core c
    let x := vctx u c
    x.fmt = some ft → x.groups [f.vd, f.va, f.vb] = true → (x.vl = 0 → ∃ t, exec i s = .next t ∧ VecNothing u t c) ∧
    (x.vl ≠ 0 → envTe k fenvKey = 0 →
    let r := ((List.range x.vl).filter (k.selects f.m f.msk)).foldl
      (fun (acc : Nat × Conds) e =>
        let y := op ft (envRm k fenvKey) acc.1 (k.velem x.sew f.va.toNat e)
        (y.1, acc.2 ||| y.2)) (k.velem x.sew f.vb.toNat 0, 0)
    ∃ t, exec i s = .next t ∧ VecRetired (fun n => n == fenvKey) u t c k.g ∧ (t.core c).m = k.m ∧
      (t.core c).crBase fenvKey = k.crBase fenvKey ||| ((flagsOf r.2).setWidth 64 <<< 8) ∧
      GroupAfter { x with vl := 1 } x.sew f.vd.toNat x.vlmax 0 (fun _ => true) (fun _ => r.1) k (t.core c))) ∧
  (∀ (i : Instr) (c : CoreId) (f : VF) (sa sb : Bool) (s : State),
    (i = .vdot4Ss c f ∧ sa = true ∧ sb = true) ∨ (i = .vdot4Uu c f ∧ sa = false ∧ sb = false) ∨
      (i = .vdot4Su c f ∧ sa = true ∧ sb = false) → Ready s c i →
    let u := fetched s c i
    let k := u.core c
    let x := vctx u c
    let byte (b : Nat) (sg : Bool) (e : Nat) : Int := if sg then (BitVec.ofNat 8 (k.velem 8 b e)).toInt else k.velem 8 b e
    x.sew = 32 → x.groups [f.vd, f.va, f.vb] = true → (x.vl = 0 → ∃ t, exec i s = .next t ∧ VecNothing u t c) ∧ (x.vl ≠ 0 →
    ∃ t, exec i s = .next t ∧ VecRetired (fun _ => false) u t c k.g ∧ (t.core c).m = k.m ∧
      GroupAfter x 32 f.vd.toNat x.vlmax x.elem (k.selects f.m f.msk)
        (fun e => (((k.velem 32 f.vd.toNat e : Int) +
          ((List.range 4).map (fun j => byte f.va.toNat sa (4 * e + j) * byte f.vb.toNat sb (4 * e + j))).sum) % 2 ^ 32).toNat)
        k (t.core c)))

/-- A vector floating-point instruction with no trap enabled rounds each active element once in the direction of FENV.RM and adds the
conditions of all of them to FENV.FLAGS (R56, R132, R143); a vector decimal instruction at SEW 64 does the same in decimal64 or, in
pairs of slots, decimal128; DCVT.D.I reads 64-bit elements (R128, R144, R159, R160). With VL 0 nothing is written and no condition
raised (R130). The vb field of VFCVT and DCVT.I.D may name any group.
Rests on choices of the model: log 11, log 86, log 116, log 117. -/
def Obligations.VectorFloatCompletes : Prop :=
  (∀ (i : Instr) (c : CoreId) (f : VF) (op : Fmt → Nat → Nat → Nat → Nat → Nat → Nat × Conds) (s : State) (ft : Fmt),
    vfpOf i = some (c, f, op) → Ready s c i →
    let u := fetched s c i
    let k := u.core c
    let x := vctx u c
    let r (e : Nat) : Nat × Conds := op ft (envRm k fenvKey) x.sew (k.velem x.sew f.va.toNat e) (vfB k x f e)
      (k.velem x.sew f.vd.toNat e)
    let used := (span x.elem x.vl).filter (k.selects f.m f.msk)
    x.fmt = some ft → vfGroups x f true = true → (x.vl = 0 → ∃ t, exec i s = .next t ∧ VecNothing u t c) ∧
    (x.vl ≠ 0 → envTe k fenvKey = 0 →
    ∃ t, exec i s = .next t ∧ VecRetired (fun n => n == fenvKey) u t c k.g ∧ (t.core c).m = k.m ∧
      (t.core c).crBase fenvKey = k.crBase fenvKey ||| ((flagsOf (joinConds (used.map (fun e => (r e).2)))).setWidth 64 <<< 8) ∧
      GroupAfter x x.sew f.vd.toNat x.vlmax x.elem (k.selects f.m f.msk) (fun e => (r e).1) k (t.core c))) ∧
  (∀ (i : Instr) (c : CoreId) (big : Bool) (f : VF) (op : DFmt → Nat → Nat → Nat → Nat → Nat × Conds) (s : State),
    vdecOf i = some (c, big, f, op) → Ready s c i →
    let u := fetched s c i
    let k := u.core c
    let x := vctx u c
    let w := if big then 128 else 64
    let wb := match i with | .dcvtDI _ _ _ => 64 | _ => w
    let r (e : Nat) : Nat × Conds := op (dfmt big) (envRm k drmKey) (k.velem w f.va.toNat e) (k.velem wb f.vb.toNat e)
      (k.velem w f.vd.toNat e)
    let used := (span x.elem x.vl).filter (k.selects f.m f.msk)
    decOk x big true f = true → (x.vl = 0 → ∃ t, exec i s = .next t ∧ VecNothing u t c) ∧ (x.vl ≠ 0 → envTe k drmKey = 0 →
    ∃ t, exec i s = .next t ∧ VecRetired (fun n => n == drmKey) u t c k.g ∧ (t.core c).m = k.m ∧
      (t.core c).crBase drmKey = k.crBase drmKey ||| ((flagsOf (joinConds (used.map (fun e => (r e).2)))).setWidth 64 <<< 8) ∧
      GroupAfter x w f.vd.toNat (if big then x.vlmax / 2 else x.vlmax) x.elem (k.selects f.m f.msk) (fun e => (r e).1) k (t.core c)))

/-- Scalar floating-point and decimal instructions with no trap enabled write their one destination from the low bits of their operands and
add their conditions to FLAGS; a trapped floating-point condition raises VECTOR_FP and changes no register; FMV.F.X and FMV.X.F move
raw bits (R49, R56, R144, R145).
Rests on choices of the model: log 11, log 116, log 117. -/
def Obligations.ScalarFloatCompletes : Prop :=
  (∀ (i : Instr) (c : CoreId) (key : Nat) (val : Core → Nat → Nat × Conds) (put : Core → W64 → Core) (s : State),
    ((∃ ty f, i = .feq c ty f ∧ key = fenvKey ∧ put = (fun k v => k.wg f.rd v) ∧ val = fun k _ =>
        let r := fpRel (fmtOf ty) 0 ((k.fr f.ra).toNat % 2 ^ (fmtOf ty).width) ((k.fr f.rb).toNat % 2 ^ (fmtOf ty).width); (b2n r.1, r.2)) ∨
     (∃ ty f, i = .flt c ty f ∧ key = fenvKey ∧ put = (fun k v => k.wg f.rd v) ∧ val = fun k _ =>
        let r := fpRel (fmtOf ty) 1 ((k.fr f.ra).toNat % 2 ^ (fmtOf ty).width) ((k.fr f.rb).toNat % 2 ^ (fmtOf ty).width); (b2n r.1, r.2)) ∨
     (∃ ty f, i = .fle c ty f ∧ key = fenvKey ∧ put = (fun k v => k.wg f.rd v) ∧ val = fun k _ =>
        let r := fpRel (fmtOf ty) 2 ((k.fr f.ra).toNat % 2 ^ (fmtOf ty).width) ((k.fr f.rb).toNat % 2 ^ (fmtOf ty).width); (b2n r.1, r.2)) ∨
     (∃ ty f, i = .funord c ty f ∧ key = fenvKey ∧ put = (fun k v => k.wg f.rd v) ∧ val = fun k _ =>
        let r := fpRel (fmtOf ty) 3 ((k.fr f.ra).toNat % 2 ^ (fmtOf ty).width) ((k.fr f.rb).toNat % 2 ^ (fmtOf ty).width); (b2n r.1, r.2)) ∨
     (∃ ty src rd ra, i = .fcvtFF c ty src rd ra ∧ key = fenvKey ∧ put = (fun k v => k.wf rd v) ∧ val = fun k rm =>
        fpConvert (fmtOf ty) (fmtOf src) rm (k.fr ra).toNat) ∨
     (∃ ty fn f, i = .scalarFp c ty fn f ∧ key = fenvKey ∧
        put = (fun k v => match fn with | .cvtXF | .cvtXuF => k.wg f.rd v | _ => k.wf f.rd v) ∧ val = fun k rm =>
        let t := fmtOf ty
        let a := (k.fr f.ra).toNat % 2 ^ t.width
        let b := (k.fr f.rb).toNat % 2 ^ t.width
        let d := (k.fr f.rd).toNat % 2 ^ t.width
        match fn with
        | .add => fpAdd t rm a b
        | .sub => fpSub t rm a b
        | .mul => fpMul t rm a b
        | .div => fpDiv t rm a b
        | .sqrt => fpSqrt t rm a
        | .min => fpMinMax t false a b
        | .max => fpMinMax t true a b
        | .sign => (fpSign t 0 a b, cNone)
        | .signN => (fpSign t 1 a b, cNone)
        | .signX => (fpSign t 2 a b, cNone)
        | .madd => fpFma t rm a b d false false
        | .msub => fpFma t rm a b d false true
        | .nmsub => fpFma t rm a b d true false
        | .cvtXF => fpToInt t rm 64 true a
        | .cvtXuF => fpToInt t rm 64 false a
        | .cvtFX => fpFromInt t rm 64 true (k.gr f.ra).toNat
        | .cvtFXu => fpFromInt t rm 64 false (k.gr f.ra).toNat)) →
    Ready s c i →
    let u := (fetched s c i)
    let k := u.core c
    let r := val k (envRm k key)
    (envTe k key = 0 →
      ∃ t, exec i s = .next t ∧ EndsEx (fun n => n == key) u t c { (put k (BitVec.ofNat 64 r.1)).past with vq := (t.core c).vq } ∧
        (t.core c).crBase key = k.crBase key ||| ((flagsOf r.2).setWidth 64 <<< 8)) ∧
    (trapped r.2 (envTe k key) = true →
      ∃ t, exec i s = .next t ∧ (t.core c).g = k.g ∧ (t.core c).v = k.v ∧ (t.core c).m = k.m ∧
        (t.core c).crBase (crKey (0x100 * (t.core c).pl + 3) (t.core c).secure) % 64 = 0x18)) ∧
  (∀ (c : CoreId) (big : Bool) (fn : DecFn) (f : RRR) (s : State),
    let i : Instr := .scalarDecimal c big fn f
    let u := fetched s c i
    let k := u.core c
    let t := dfmt big
    let rm := envRm k drmKey
    let a := (k.vr f.ra.toNat).toNat % 2 ^ t.width
    let b := (k.vr f.rb.toNat).toNat % 2 ^ t.width
    let d := (k.vr f.rd.toNat).toNat % 2 ^ t.width
    let rel (n : Nat) : Nat × Conds := let y := decRel t n a b; (b2n y.1, y.2)
    let r : Nat × Conds := match fn with
      | .add => decAdd t rm a b
      | .sub => decSub t rm a b
      | .mul => decMul t rm a b
      | .div => decDiv t rm a b
      | .fma => decFma t rm a b d
      | .quant => decQuant t rm a b
      | .rint => decRint t rm a
      | .min => decMinMax t false a b
      | .max => decMinMax t true a b
      | .cvtDI => decFromInt t rm (k.gr f.ra).toNat
      | .cvtID => decToInt64 t rm a
      | .eq => rel 0
      | .lt => rel 1
      | .le => rel 2
    let q := match fn with
      | .eq | .lt | .le | .cvtID => k.wg f.rd (BitVec.ofNat 64 r.1)
      | _ => k.wv f.rd.toNat (BitVec.ofNat 512 r.1)
    Ready s c i → envTe k drmKey = 0 →
      ∃ z, exec i s = .next z ∧ EndsEx (fun n => n == drmKey) u z c { q.past with vq := (z.core c).vq } ∧
        (z.core c).crBase drmKey = k.crBase drmKey ||| ((flagsOf r.2).setWidth 64 <<< 8)) ∧
  (∀ (c : CoreId) (ty : FpTy) (rd ra : RegNo) (s : State),
    let i : Instr := .fmvFX c ty rd ra
    let k := (fetched s c i).core c
    Ready s c i → ∃ t, exec i s = .next t ∧
      Ends (fetched s c i) t c { (k.wf rd (((k.gr ra).setWidth (fmtOf ty).width).setWidth 64)).past with vq := (t.core c).vq }) ∧
  (∀ (c : CoreId) (ty : FpTy) (rd ra : RegNo) (s : State),
    let i : Instr := .fmvXF c ty rd ra
    let k := (fetched s c i).core c
    Ready s c i → ∃ t, exec i s = .next t ∧
      Ends (fetched s c i) t c { (k.wg rd (((k.fr ra).setWidth (fmtOf ty).width).setWidth 64)).past with vq := (t.core c).vq })

/-- The AES steps act on every 128-bit block of the group; VSHA256.SIG0 and SIG1, indivisible, and the carry-less multiplies on every
active element of their width; VSHA256.RND2 performs two rounds of SHA-256 in each of eight lanes: variables a to h in the halves of vd to vd+3, the two
message words with their constants added in va (R146-R148, R157). With VL 0 VSHA256.SIG0 and SIG1 and the multiplies write nothing
(R130); the others ignore VL. -/
def Obligations.VectorCryptoCompletes : Prop :=
  (∀ (i : Instr) (c : CoreId) (f : VF) (step : List Byte → List Byte → List Byte) (s : State),
    aesOf i = some (c, f, step) → Ready s c i →
    let u := fetched s c i
    let k := u.core c
    let x := vctx u c
    x.groups [f.vd, f.vb] = true →
    ∃ t, exec i s = .next t ∧ VecRetired (fun _ => false) u t c k.g ∧ (t.core c).m = k.m ∧
      (∀ b, b < 4 * x.g → (t.core c).velem 128 f.vd.toNat b =
        leNat (step (leBytes 16 (k.velem 128 f.vd.toNat b)) (leBytes 16 (k.velem 128 f.vb.toNat b))) % 2 ^ 128) ∧
      (∀ r, r < 32 → ¬ (f.vd.toNat ≤ r ∧ r < f.vd.toNat + x.g) → (t.core c).vr r = k.vr r)) ∧
  (∀ (i : Instr) (c : CoreId) (f : VF) (w : Nat) (val : Core → VCtx → Nat → Nat) (s : State),
    ((i = .vsha256Sig0 c f ∧ w = 32 ∧ val = fun k _ e => (sig0 (BitVec.ofNat 32 (k.velem 32 f.va.toNat e))).toNat) ∨
     (i = .vsha256Sig1 c f ∧ w = 32 ∧ val = fun k _ e => (sig1 (BitVec.ofNat 32 (k.velem 32 f.va.toNat e))).toNat) ∨
     (i = .vclmul c f ∧ w = 64 ∧ val = fun k x e => (clmulLo (BitVec.ofNat 64 (k.velem 64 f.va.toNat e)) (BitVec.ofNat 64 (vopB k x f e))).toNat) ∨
     (i = .vclmulh c f ∧ w = 64 ∧ val = fun k x e => (clmulHi (BitVec.ofNat 64 (k.velem 64 f.va.toNat e)) (BitVec.ofNat 64 (vopB k x f e))).toNat)) →
    Ready s c i →
    let u := fetched s c i
    let k := u.core c
    let x := vctx u c
    x.sew = w → vGroups x f true = true → (x.vl = 0 → ∃ t, exec i s = .next t ∧ VecNothing u t c) ∧ (x.vl ≠ 0 →
    ∃ t, exec i s = .next t ∧ VecRetired (fun _ => false) u t c k.g ∧ (t.core c).m = k.m ∧
      GroupAfter x w f.vd.toNat x.vlmax (if w = 32 then 0 else x.elem) (k.selects f.m f.msk) (val k x) k (t.core c))) ∧
  (∀ (c : CoreId) (f : VF) (s : State),
    let i : Instr := .vsha256Rnd2 c f
    let u := fetched s c i
    let k := u.core c
    let lane (n e : Nat) : W32 := BitVec.ofNat 32 (k.velem 32 (f.vd.toNat + n) e)
    let word (n : Nat) (l : Nat) : W32 := BitVec.ofNat 32 (k.velem 32 f.va.toNat (8 * n + l))
    let after (l : Nat) : ShaSt := shaRound (shaRound ⟨lane 0 l, lane 0 (8 + l), lane 1 l, lane 1 (8 + l), lane 2 l, lane 2 (8 + l),
      lane 3 l, lane 3 (8 + l)⟩ (word 0 l)) (word 1 l)
    Ready s c i → f.vd.toNat % 4 = 0 → ¬ (f.vd.toNat ≤ f.va.toNat ∧ f.va.toNat < f.vd.toNat + 4) →
    ∃ t, exec i s = .next t ∧ VecRetired (fun _ => false) u t c k.g ∧ (t.core c).m = k.m ∧
      (∀ l, l < 8 →
        let e (n j : Nat) : Nat := (t.core c).velem 32 (f.vd.toNat + n) j
        e 0 l = (after l).a.toNat ∧ e 0 (8 + l) = (after l).b.toNat ∧ e 1 l = (after l).c.toNat ∧ e 1 (8 + l) = (after l).d.toNat ∧
        e 2 l = (after l).e.toNat ∧ e 2 (8 + l) = (after l).f.toNat ∧ e 3 l = (after l).g.toNat ∧ e 3 (8 + l) = (after l).h.toNat) ∧
      (∀ r, r < 32 → ¬ (f.vd.toNat ≤ r ∧ r < f.vd.toNat + 4) → (t.core c).vr r = k.vr r))

/-- A vector load whose active elements all load, with no Device page and no interrupt, places them by class; a vector store whose
elements are all accepted, a whole line of a unit-stride one as one full-line store (R240), writes no register; both then retire with
VRESUME.ELEM 0 (R149-R155). With VL 0 they access nothing and write nothing (R130). -/
def Obligations.VectorMemoryCompletes : Prop :=
  ∀ (i : Instr) (c : CoreId) (f : VM) (mode : VMode) (st : Bool) (s : State), vmemOf i = some (c, f, mode, st) → Ready s c i →
    f.stop = none →
    let u := fetched s c i
    let k := u.core c
    let x := vctx u c
    let q := wideMark (u.onCore c (fun k => k.vqWait (groupRegs f.vd.toNat 8 ++ groupRegs f.rb.toNat 8) [f.msk.toNat])) c x.g
    let kind : AccKind := if st then .vstore else .vload
    let used := (span x.elem x.vl).filter (k.selects f.m f.msk)
    let addr := elemAddr k x f mode
    vmemOk x f mode st = true → (x.vl = 0 → ∃ t, exec i s = .next t ∧ VecNothing u t c) ∧ (x.vl ≠ 0 → ∀ p, firstDevice c addr kind used q = (p, none) →
    (st = false → ∀ w r, loadElems c addr (x.sew / 8) used p [] = (w, r, none) → w.stalled = false →
      ∃ t, exec i s = .next t ∧ VecRetired (fun _ => false) w t c (w.core c).g ∧ (t.core c).m = (w.core c).m ∧
        GroupAfter x x.sew f.vd.toNat x.vlmax x.elem (k.selects f.m f.msk) (lookD 0 r) (w.core c) (t.core c)) ∧
    (st = true → ∀ w, storeElems c addr (x.sew / 8) (fun e => k.velem x.sew f.vd.toNat e)
        (fun e => decide (mode = .unit) && wholeLine addr (x.sew / 8) used e) 0 used p = (w, none) → w.stalled = false →
      ∃ t, exec i s = .next t ∧ VecRetired (fun _ => false) w t c (w.core c).g ∧ (t.core c).v = (w.core c).v ∧ (t.core c).m = (w.core c).m))

/-! ## Caches, predictors, ownership, control registers with an effect of their own -/

/-- A preload that is dropped, or whose translation for reading (for level 3 for fetching too) or check fails, only retires; else the
line is brought to its level; PRELOAD.F raises
what a load there would raise (R103, R105). A DCR at its level drains the core's stores and processes its lines in ascending order;
with all processed ga is advanced past the range, gb is 0 and it retires; stopped by an interrupt, the registers name what is left
and it does not retire; a fault leaves them so too and is taken (R106, R107).
Rests on choices of the model: log 52. -/
def Obligations.CacheInstructionsComplete : Prop :=
  (∀ (c : CoreId) (ra : RegNo) (level : BitVec 2) (s : State),
    let i : Instr := .preload c ra level true
    Ready s c i → ∃ t, exec i s = .next t ∧ Ends (fetched s c i) t c ((fetched s c i).core c).past) ∧
  (∀ (c : CoreId) (ra : RegNo) (level : BitVec 2) (s w : State),
    let i : Instr := .preload c ra level false
    let u := fetched s c i
    Ready s c i →
    let runs (v : State) : Prop := level = 3 → ∃ x, (translate v c ((v.core c).gr ra) .preloadX true).2 = .ok x
    (∀ e, translate u c ((u.core c).gr ra) .preload true = (w, .error e) → w.stalled = false →
      ∃ t, exec i s = .next t ∧ Ends w t c (w.core c).past) ∧
    (∀ x, translate u c ((u.core c).gr ra) .preload true = (w, .ok x) → ¬ runs w → w.stalled = false →
      ∃ t, exec i s = .next t ∧ Ends w t c (w.core c).past) ∧
    (∀ x y f, translate u c ((u.core c).gr ra) .preload true = (w, .ok x) → runs w →
      preloadLine w c (x.pa / 64) level.toNat false = (y, f) → y.stalled = false →
      ∃ t, exec i s = .next t ∧ Ends y t c (y.core c).past)) ∧
  (∀ (c : CoreId) (ra : RegNo) (level : BitVec 2) (s w : State),
    let i : Instr := .preloadF c ra level
    let u := fetched s c i
    Ready s c i →
    (∀ e, translate u c ((u.core c).gr ra) (preloadKind level) true = (w, .error e) → w.stalled = false →
      ∃ t, exec i s = .next t ∧ TakenAt w t c e (if e.code = 0x20 then some 0x600 else none)) ∧
    (∀ x y, translate u c ((u.core c).gr ra) (preloadKind level) true = (w, .ok x) →
      preloadLine w c (x.pa / 64) level.toNat true = (y, none) → y.stalled = false →
      ∃ t, exec i s = .next t ∧ Ends y t c (y.core c).past) ∧
    (∀ x y f, translate u c ((u.core c).gr ra) (preloadKind level) true = (w, .ok x) →
      preloadLine w c (x.pa / 64) level.toNat true = (y, some f) → y.stalled = false →
      ∃ t, exec i s = .next t ∧ TakenAt y t c (ownExc ((u.core c).gr ra) (preloadKind level) f) none)) ∧
  (∀ (i : Instr) (c : CoreId) (op : DcrOp) (need : Nat) (ra rb : RegNo) (stop : Option Nat) (s : State),
    (i = .dcrClean c ra rb stop ∧ op = .clean ∧ need = 0) ∨ (i = .dcrInv c ra rb stop ∧ op = .inv ∧ need = 1) ∨
      (i = .dcrCinv c ra rb stop ∧ op = .cinv ∧ need = 0) →
    Ready s c i →
    let u := fetched s c i
    let ga := (u.core c).gr ra
    let gb := (u.core c).gr rb
    let total := if gb = 0 then 0 else (ga.toNat % 64 + gb.toNat + 63) / 64
    let n := match (if interruptReady u c then stop else none) with | some m => min m total | none => total
    need ≤ (u.core c).pl → ∀ w r, dcrLines c op ga n (drainAll u c) 0 = (w, r) → w.stalled = false →
    (r = (n, none) → n = total → ∃ t, exec i s = .next t ∧
      Ends w t c (if total = 0 then w.core c else ((w.core c).wg ra ((w.core c).gr ra + (w.core c).gr rb)).wg rb 0).past) ∧
    (r = (n, none) → n < total → exec i s = .next (w.onCore c (fun k => dcrLeave k ra rb n total))) ∧
    (∀ m e, r = (m, some e) → ∃ t, exec i s = .next t ∧
      TakenAt (w.onCore c (fun k => dcrLeave k ra rb m total)) t c e (if e.code = 0x20 then some 0x600 else none)))

/-- PRED.FLUSH leaves the running context no prediction, PRED.BAR an index with no entry; BRANCH_RESOLVE trains the running context, in
the target buffer that a taken direct branch is next predicted from and, while INDOFF is 0, in the indirect-target predictor, and
changes prediction state alone; its wrong path changes no register (R114, R179, R182, R184, R185). VECTOR_COMPLETE takes the oldest queue entry, WIDE_IDLE_EXPIRY ends the
wide mark, PARTIAL_OVERLAP_RELEASE performs the waiting load, LINE_FILL places a granted line and performs a waiting store to it, counters that overflow wrap with their
overflow bit, and the sample of the oldest sampled instruction is held, or lost while two are, where it fits (R135, R136, R169, R232, R235, R412, R466, R470).
Rests on choices of the model: log 61. -/
def Obligations.CoreEventsComplete : Prop :=
  (∀ (c : CoreId) (s : State),
    let u := fetched s c (.predFlush c)
    Ready s c (.predFlush c) → ∀ i, ctxIdx (u.core c) = some i →
    ∃ t p, exec (.predFlush c) s = .next t ∧ Ends u t c { u.core c with pred := p }.past ∧
      ∀ a kind off, predictedTaken p i a = false ∧ predictedTarget p i a kind off = none) ∧
  (∀ (c : CoreId) (s : State),
    let u := fetched s c (.predBar c)
    Ready s c (.predBar c) → ((u.core c).pred.ctxs.filter (fun x => sameCtx x (runningCtx (u.core c) 0))).length ≤ 1 →
    ∃ t p i, exec (.predBar c) s = .next t ∧ Ends u t c { u.core c with pred := p }.past ∧
      ctxIdx { u.core c with pred := p } = some i ∧
      ∀ a kind off, predictedTaken p i a = false ∧ predictedTarget p i a kind off = none) ∧
  (∀ (c : CoreId) (s : State) (addr tgt : W64) (taken : Bool) (kind : BranchKind), s.active c = true →
    let k := (s.core c).useCtx
    let i := (ctxIdx k).getD 0
    let off := bitAt (k.crBase (crKey 0x110 k.secure)) 0
    ∃ t p, exec (.branchResolve c addr tgt taken kind []) s = .next t ∧ Ends s t c { k with pred := p } ∧
      p = train k.pred i addr tgt taken kind off ∧
      (kind = .direct → taken = true → predictedTarget p i addr .direct off = some tgt) ∧
      (kind ≠ .direct → p.ind = if off then k.pred.ind else remember 4096 ⟨i, addr, k.pred.path, tgt, 0⟩ k.pred.ind)) ∧
  (∀ (c : CoreId) (s : State) (addr tgt : W64) (taken : Bool) (kind : BranchKind) (wrong : List (Bool × W64)),
    ∃ t, exec (.branchResolve c addr tgt taken kind wrong) s = .next t ∧
      (∀ d, (t.core d).pc = (s.core d).pc ∧ (t.core d).g = (s.core d).g ∧ (t.core d).v = (s.core d).v ∧ (t.core d).m = (s.core d).m)) ∧
  (∀ (c : CoreId) (s : State),
    exec (.vectorComplete c) s = .next (s.setCore c { s.core c with vq := (s.core c).vq.tail }) ∧
    (s.frozen = false → (s.core c).vq.all (fun e => !e.wide) = true →
      exec (.wideIdleExpiry c) s = .next (s.setCore c { s.core c with wide := false }))) ∧
  (∀ (c : CoreId) (s y : State) (w : WaitLd) (v : W64), s.power.clocks = true → (s.core c).waitLd = some w → w.acquire = false →
    let u := s.setCore c { s.core c with waitLd := none }
    load (drainThrough u c (waitsOn u c w)) c w.va .load w.bytes = (y, .val v) → (y.core c).waitLd = none → y.stalled = false →
    ∃ t, exec (.partialOverlapRelease c) s = .next t ∧ Ends y t c ((y.core c).place w.rd w.dest v).past) ∧
  (∀ (c : CoreId) (line : BitVec 46) (s : State) (f : FillMsg) (x : CLine), s.stalled = false → s.frozen = false →
    s.fills.find? (fun f => f.core == c.val && f.line == line.toNat) = some f → f.c = some x →
    (((s.core c).l2.map (·.1)).filter (fun l => l % 2048 == line.toNat % 2048 && l != line.toNat)).length < 16 → s.homeq = [] →
    (look (s.core c).asks line.toNat = none → (∀ e rest, (s.core c).sb = e :: rest → e.pa / 64 ≠ line.toNat) →
      let old := look (s.core c).l2 line.toNat
      let has (f : L2Line → Bool) : Bool := (old.map f).getD false
      let new : L2Line := ⟨f.st, x, has L2Line.l1d, has L2Line.l1i, has L2Line.wrote, 0, 0, false⟩
      ∃ t, exec (.lineFill c line) s = .next t ∧
        t.around = { s with fills := s.fills.filter (fun f => !(f.core == c.val && f.line == line.toNat)) }.around ∧
        (∀ d, d ≠ c → t.core d = s.core d) ∧
        t.core c = { s.core c with asks := del (s.core c).asks line.toNat, l2 := put (s.core c).l2 line.toNat new }) ∧
    (∀ e rest, ((receiveFill s c line.toNat).core c).sb = e :: rest → e.pa / 64 = line.toNat →
      (drainStore (receiveFill s c line.toNat) c).stalled = false →
      exec (.lineFill c line) s = .next (drainStore (receiveFill s c line.toNat) c))) ∧
  (∀ (c : CoreId) (n : Fin 8) (s : State), s.frozen = false → bitAt ((s.core c).crEff 0x80) n = true → bitAt ((s.core c).crEff 0x80) 9 = false →
    s.countingAllowed c = true → ((s.core c).crBase (0x88 + n)).toNat = 2 ^ 48 - 1 → fld ((s.core c).crEff (0x90 + n)) 0 10 ≠ 0 →
    passesFilter (fld ((s.core c).crEff (0x90 + n)) 10 4) (s.core c).pl (s.core c).secure = true → ∃ t, exec (.pmcOverflow c n) s = .next t ∧ (t.core c).crBase (0x88 + n) = 0 ∧
      bitAt ((t.core c).crBase 0x82) n = true ∧ (t.core c).g = (s.core c).g) ∧
  (∀ (c : CoreId) (a d p g : W64) (l : W32) (src : BitVec 3) (s : State) (head : W512) (rest : List W512), s.frozen = false →
    (s.core c).smpDue = head :: rest →
    (sampleFits head a d p = false → exec (.sampleTaken c a d p g l src) s = .next s) ∧
    (sampleFits head a d p = true → (s.core c).smpHeld.length < 2 → exec (.sampleTaken c a d p g l src) s = .next (s.setCore c
      { s.core c with smpDue := rest, smpHeld := (s.core c).smpHeld ++ [sampleRecord head d p g l src] })) ∧
    (sampleFits head a d p = true → 2 ≤ (s.core c).smpHeld.length → exec (.sampleTaken c a d p g l src) s = .next (s.setCore c
      { (s.core c).crPut 0xA3 (setFld ((s.core c).crBase 0xA3) 16 16 (min (fld ((s.core c).crBase 0xA3) 16 16 + 1) 65535)) with
        smpDue := rest }))) ∧
  (∀ (c : CoreId) (s w : State) (r : W512) (rest : List W512),
    let u := s.setCore c { s.core c with smpHeld := rest }
    let ptr := (s.core c).crBase 0xA2
    let pa := fld ((s.core c).crBase 0xA1) 12 40 * 4096 + 64 * fld ptr 0 16
    s.frozen = false → (s.core c).smpHeld = r :: rest → fld ptr 0 16 < fld ptr 16 16 → fld ptr 32 16 = 0 → populated u pa = true →
    (regionOf pa = .dram ∨ regionOf pa = .vault) →
    let sec := bitAt ((s.core c).crBase 0xA3) 44
    homeWrite (chargeAccess u (c / 2) (pa / 64) (qosIn u c sec)) (pa / 64) sec (fld ((s.core c).crBase 0xA3) 32 12) r (2 ^ 64 - 1) 0 =
      (w, .ok ()) →
    w.stalled = false →
    exec (.sampleRecordWrite c) s = .next (w.onCore c (fun k => k.crPut 0xA2 (setFld (k.crBase 0xA2) 0 16 (fld ptr 0 16 + 1)))))

/-- OWN.SET at PL3 with interrupts disabled answers with the old entry, without effect and with bit 62 set where no table covers the
page, and with bit 63 set where it is refused; with interrupts enabled it is ILLEGAL (R120, R333). The home's probe and a target's
fill change no register.
Rests on choices of the model: log 16. -/
def Obligations.OwnershipCompletes : Prop :=
  (∀ (c : CoreId) (f : RRR) (s w : State) (v : W64),
    let i : Instr := .ownSet c f
    let u := fetched s c i
    let pa := ((u.core c).gr f.ra).toNat
    Ready s c i → (u.core c).pl = 3 →
    ((u.core c).ie = true → ∃ t, exec i s = .next t ∧ TakenAt u t c (Exc.plain 0x01 1 ((wordOf i).setWidth 64) 0) none) ∧
    ((u.core c).ie = false → ownSetPage u pa (((u.core c).gr f.rb).setWidth 16) = (w, v) → w.stalled = false →
      ∃ t, exec i s = .next t ∧ Ends w t c ((w.core c).wg f.rd v).past) ∧
    ((u.core c).ie = false → entryAddr u pa = none →
      ∃ (t : State) (x : W16), exec i s = .next t ∧
        Ends u t c ((u.core c).wg f.rd (0x4000000000000000 ||| x.setWidth 64)).past)) ∧
  (∀ (c : CoreId) (line : BitVec 46) (s w : State) (r : Except (Nat × Nat) (Nat × W16)),
    s.frozen = false →
    (homeCheck s line.toNat (s.core c).secure (s.core c).owner.toNat true = (w, r) → w.stalled = false →
      exec (.ownershipProbe c line) s = .next w ∧ (∀ d, (w.core d).g = (s.core d).g ∧ (w.core d).pc = (s.core d).pc)) ∧
    (tableLocked s = false → s.power.memWait = false → exec (.ownershipProbe c line) s = .next s)) ∧
  (∀ (a : OwnCache) (pa : Pa) (s w : State) (e : Nat) (x : OwnLine), s.frozen = false → tableLocked s = true → entryAddr s pa.toNat = some e →
    ownFill s (ownCacheOf a) (e / 64) = (w, x) → w.stalled = false →
    exec (.ownershipCacheFill a pa) s = .next w ∧ x ∈ w.ownc)

/-! ## Accesses that leave the core, interrupts (chapters 05, 15, 16) -/

/-- A configuration or outbound access: a value answers a load at once; one sent to a port leaves the core waiting for the response
with its tag; a store that is accepted retires; one of Wicket or Louvre ends with its value or waits for a port. An access of R192 to
an on-chip target leaves the core; not answered in time it raises IO_ABORT kind 5 with its target's class, a load reads all ones, an
atomic's register stays, and an entry it held is given up (R96, R192-R194, R431, R436, R437).
Rests on choices of the model: log 17, log 63, log 111. -/
def Obligations.OutboundAccesses : Prop :=
  (∀ (i : Instr) (c : CoreId) (rd : RegNo) (addr : W64) (write : Bool) (wd : Width) (v : W64) (s w : State) (x : Xlat),
    let u := fetched s c i
    let len := widthBytes wd
    Ready s c i → translate u c addr (if write then .store else .load) (addr.toNat % len == 0) = (w, .ok x) →
    (i = .configAccess (.core c) rd addr write wd v ∧ ∃ k, regionAt x.pa = .ecam k) ∨
      (i = .outboundRequest (.core c) rd addr write wd v ∧ ∃ k, regionAt x.pa = .pcie k) →
    (∀ y z, write = false → load w c addr .load len = (y, .val z) → y.stalled = false →
      ∃ t, exec i s = .next t ∧ Ends y t c ((y.core c).place rd .gzx z).past) ∧
    (∀ y k p pa cfg, write = false → load w c addr .load len = (y, .left k p pa cfg) → y.stalled = false →
      exec i s = .next ((sendOut y k p c pa cfg).1.onCore c (fun q =>
        { q with out := some ⟨rd, .gzx, len, pa, addr, false, 0, some k, (y.rc k).next, cfg, none⟩ }))) ∧
    (∀ y, write = true → storeTo w c addr .store len v false = (y, .done) → y.stalled = false →
      ∃ t, exec i s = .next t ∧ Ends y t c (y.core c).past)) ∧
  (∀ (who : Requester) (n k : Nat) (rd : RegNo) (addr v : W64) (write : Bool) (wd : Width) (s u : State) (r : OutRes),
    let len := widthBytes wd
    let pa := addr.toNat
    s.frozen = false → s.rootClock = true → (who = .wicket ∧ n = 192 ∧ s.wicket.running = true) ∨ (who = .louvre ∧ n = 193) →
    regionAt pa = .pcie k → pa % len = 0 → memAccess s k (pa % 2 ^ 45) write = (u, r) → (look (u.rc k).svc n).bind (·.acc) = none →
    let ends (x : State) (a : SvcAccess) : State := x.setRc k { x.rc k with svc := put (x.rc k).svc n a }
    (∀ d, r = .value d →
      exec (.outboundRequest who rd addr write wd v) s = .next (ends u ⟨none, some (some (if write then 0 else d))⟩)) ∧
    (∀ p, r = .sent k p → exec (.outboundRequest who rd addr write wd v) s =
      .next (ends (sendOut u k p n pa false).1 ⟨some ⟨0, .none, len, pa, BitVec.ofNat 64 pa, write, v, some k, (u.rc k).next, false, none⟩, none⟩))) ∧
  (∀ (c : CoreId) (a : InFlight) (s w : State) (o : OutAcc),
    let i : Instr := .onchipAccessTimeout c a
    let ended (k : Core) : Core :=
      if o.write || o.atomic.isSome then { k with out := none } else { k with out := none }.place o.rd o.dest (ones o.bytes)
    let e : Exc := { Exc.plain 0x13 1 o.va (5 + (match regionAt o.pa with | .vault => 1 | .regs => 3 | _ => 0) * 2 ^ 10) with
      write := o.write || o.atomic.isSome }
    timesItself o = true →
    (Ready s c i → leaveCore (fetched s c i) c a = (w, .ok true) → (w.core c).out = some o → (w.core c).heldEntry = none →
      w.stalled = false → ∃ t, exec i s = .next t ∧ TakenAt (w.setCore c (ended (w.core c))) t c e none) ∧
    (∀ d lv, s.frozen = false → (s.core c).heldEntry = some (d, lv) → (s.core c).out = some o →
      let q := dropHeld (countHeld s c) c
      ∃ t, exec i s = .next t ∧ TakenAt (q.setCore c (ended (q.core c))) t c e none)) ∧
  (∀ (c : CoreId) (a : InFlight) (s w : State) (x : Xlat),
    let o := flightAccess (s.core c) a
    o.va.toNat % o.bytes = 0 → unrepeatable a x o = true →
    (if o.kind = .load then translate s c o.va o.kind true else storePart s c o.va o.kind true) = (w, .ok x) →
    ∃ v, leaveCore s c a = (v, .ok true) ∧ (v.core c).out = some { o with pa := x.pa } ∧ (v.core c).g = (w.core c).g)

/-- INTERRUPT_ENTRY enters the first eligible interrupt at EVEC + 0x400 with its number as DETAIL, unless an access that cannot be
repeated is out, or has left the core with the instruction at the program counter: then the entry is held. A response ends the access:
its instruction retires, or IO_ABORT is raised on a timeout with all ones in a load's register, and a held entry follows a value; an
access of Wicket or Louvre ends with the value (R63, R64, R188, R192, R193, R436).
Rests on choices of the model: log 54. -/
def Obligations.InterruptsAndResponses : Prop :=
  (∀ (c : CoreId) (s : State) (x : Cand), entersInterrupts s c = true → firstCand (eligible s c) = some x →
    let u := if x.glob then takeSource s c x.t x.num else s
    ((s.core c).out = none → ∃ t, exec (.interruptEntry c none) s = .next t ∧
      Ends u t c { ({ u.core c with waitLd := none, heldEntry := none }).enter x.t (origOf u x.t x.num)
        { Exc.plain 0x3F 0 0 x.num with vec := (u.core c).vecStop } (some 0x400) with vecStop := false }) ∧
    ((s.core c).out ≠ none → ∀ a,
      exec (.interruptEntry c a) s = .next (u.setCore c { u.core c with heldEntry := some (x.num, x.t) }))) ∧
  (∀ (c : CoreId) (a : InFlight) (s v : State) (x : Cand) (o : OutAcc), entersInterrupts s c = true → interruptReady s c = true →
    (s.core c).out = none → flyingOut s c a = v → firstCand (eligible v c) = some x → (v.core c).out = some o →
    let u := if x.glob then takeSource v c x.t x.num else v
    (u.core c).out = some o →
    exec (.interruptEntry c (some a)) s = .next (u.setCore c { u.core c with heldEntry := some (x.num, x.t) })) ∧
  (∀ (s : State) (k : Fin 8) (n : Nat) (x : OutReq) (o : OutAcc) (v : W64), s.frozen = false → s.stalled = false →
    (s.rc k).out.find? (fun y => y.tag == x.tag) = some x → x.who = n → 192 ≤ n → (look (s.rc k).svc n).bind (·.acc) = some o → o.tag = x.tag →
    let t := tagDone s k x.tag
    exec (.completion k x.tag (.ok v) none true) s = .next (t.setRc k { t.rc k with
      svc := put (t.rc k).svc n ⟨none, some (some (v &&& BitVec.ofNat 64 (2 ^ (8 * o.bytes) - 1)))⟩ })) ∧
  (∀ (s : State) (k : Fin 8) (tag : Nat) (c : CoreId) (p : Nat) (ide : Option Nat) (o : OutAcc) (v : W64), s.frozen = false → s.stalled = false →
    (s.rc k).out.find? (fun x => x.tag == tag) = some ⟨tag, c, p, ide⟩ → (s.core c).out = some o → o.rc = some k.val → o.tag = tag →
    let q := { s.core c with out := none, heldEntry := none }
    let r := v &&& BitVec.ofNat 64 (2 ^ (8 * o.bytes) - 1)
    ((s.core c).heldEntry = none → ∃ t, exec (.completion k tag (.ok v) none true) s = .next t ∧
      Ends (tagDone s k tag) t c (if o.write then q else q.place o.rd o.dest r).past) ∧
    (∀ d lv, (s.core c).heldEntry = some (d, lv) → 1 ≤ lv → lv ≤ 3 → (lv = 2 → (s.core c).secure = false) →
      ∀ i : Instr, (i = .completion k tag (.ok v) none true ∨ i = .entryResponse c (.ok v)) →
      ∃ t, exec i s = .next t ∧ (t.core c).out = none ∧ (t.core c).heldEntry = none ∧ (t.core c).pl = lv ∧
        (t.core c).g = (if o.write then q else q.place o.rd o.dest r).g ∧
        (t.core c).crBase (crKey (0x100 * lv + 3) (lv == 3 || (s.core c).secure)) =
          ecause { Exc.plain 0x3F 0 0 d with vec := (s.core c).vecStop } (s.core c).pl (s.core c).secure (origOf s lv d)) ∧
    ((s.core c).heldEntry = none → ∃ w,
      TakenAt ((tagDone s k tag).setCore c (if o.write || o.atomic.isSome then q else q.place o.rd o.dest (ones o.bytes))) w c
        { Exc.plain 0x13 1 o.va (k.val * 2 ^ 4 + p * 2 ^ 8) with write := o.write } none ∧
      ((raiseAer w k p aerTimeout).stalled = false → exec (.completionTimeout k tag) s = .next (raiseAer w k p aerTimeout))))

/-! ## Supplies, clocks, resets (chapters 01 and 18) -/

/-- What every warm reset leaves (R479, R483): no core, the boot record kept; on a running package each enabled core rail at P10's code, or as
it was where its frame failed; and the error rings as they were where no frame is sent. -/
def AfterWarm (s t : State) : Prop :=
  t.cores = [] ∧ t.wicket.record = s.wicket.record ∧
  (s.power.pkg = .running →
    (∀ r, r < 4 → (s.vr r).enabled = true → (t.vr r).code = 90 ∨ (t.vr r).code = (s.vr r).code) ∧
    ((∀ r, r < 4 → (s.vr r).enabled = true → (s.vr r).code = 90) → t.rings = s.rings))

/-- The always-on supply, PWRGOOD with its straps, RESET_N, the watchdog's reset, thermal trip and failing supplies, each with what it
keeps and loses (R14, R24, R47, R320, R342, R461, R474, R475, R479, R483).
Rests on choices of the model: log 14, log 40, log 46, log 47, log 106, log 121. -/
def Obligations.SupplyAndResetEvents : Prop :=
  (∀ s : State, s.power.vaon = false →
    exec .vaonPowerOn s = .next { s with power := { s.power with vaon := true, time := 0, causes := [1] } }) ∧
  (∀ s : State, ∃ t, exec .vaonLoss s = .next t ∧ t.power.vaon = false ∧ t.power.clocks = false ∧ t.regs = [] ∧ t.cores = [] ∧ t.mem = [] ∧
    t.rings = [] ∧ t.wicket = { Wicket.reset with fuses := s.wicket.fuses, flash := s.wicket.flash, maps := s.wicket.maps } ∧
    t.pending = s.pending) ∧
  (∀ (s : State) (oct : Bool), s.power.vaon = true → s.power.pwrgood = false →
    exec (.pwrgoodRise oct false) s =
      .next { s with power := { s.power with pwrgood := true, octal := oct, testEn := false, startDue := true } } ∧
    ∃ t, exec (.pwrgoodRise oct true) s = .next t ∧
      t.power = { s.power with pwrgood := true, octal := oct, testEn := true, startDue := false, clocks := false, errFatal := true,
                               fatalCode := if s.power.fatalCode = 0 then 0x45 else s.power.fatalCode }) ∧
  (∀ s : State, s.power.pwrgood = true → ∃ t, exec .pwrgoodFall s = .next t ∧ t.power.pwrgood = false ∧ t.power.clocks = false ∧
    t.power.time = s.power.time ∧ t.power.causes = s.power.causes ++ [2] ∧ t.cores = [] ∧ t.mem = [] ∧ t.rings = [] ∧
    t.wicket.record = s.wicket.record) ∧
  (∀ s : State, warmAllowed s = true → s.power.resetN = false → ∃ t, exec .resetNAssert s = .next t ∧ t.power.resetN = true ∧
    t.power.clocks = false ∧ t.power.causes = s.power.causes ++ [3] ∧ AfterWarm s t) ∧
  (∀ s : State, s.power.resetN = true →
    exec .resetNRelease s = .next { s with power := { s.power with resetN := false, startDue := warmAllowed s } }) ∧
  (∀ s : State, s.power.restart = true → warmAllowed s = true → s.power.resetN = false →
    exec .warmResetRestart s = .next { s with power := { s.power with restart := false, startDue := true } }) ∧
  (∀ s : State, swdCounts s = true → warmAllowed s = true → ∃ t, exec .swdExpiry s = .next t ∧ t.power.restart = true ∧
    t.power.causes = s.power.causes ++ [4] ∧ AfterWarm s t) ∧
  (∀ s : State, swdCounts s = true → warmAllowed s = false → exec .swdExpiry s = .next s) ∧
  (∀ (x : Sensor) (s : State), s.power.vaon = true → s.power.pwrgood = true → ∃ t, exec (.thermtrip x) s = .next t ∧
    t.power.thermtrip = true ∧ t.power.errFatal = true ∧ t.power.clocks = false ∧ (∀ r, r < 9 → (t.vr r).enabled = false) ∧
    t.power.fatalCode = (if s.power.fatalCode = 0 then 0xFE else s.power.fatalCode) ∧ t.cores = s.cores ∧ t.mem = s.mem) ∧
  (∀ (rail : Byte) (s : State), s.power.pwrgood = true → ∃ t, exec (.supplyOutOfRange rail) s = .next t ∧
    rail.toNat ∈ t.power.supplyBad ∧ t.wicket = s.wicket ∧ t.dirs = s.dirs ∧ t.notes = s.notes ∧ t.pending = s.pending ∧
    ∀ c, (t.core c).pl = (s.core c).pl ∧ (t.core c).cr = (s.core c).cr ∧ (t.core c).run = (s.core c).run ∧ (t.core c).gr 0 = 0)

/-- The root PLL locks and a waiting switch begins, or is lost, which is fatal; a switch ends with ACTIVE at SRC. Start-up goes on from
where it may begin: a failed self-test stops it with code 1, a rail that does not come up with code 7, behind a missing directory; one
that reaches its end has the clocks running, Wicket running, the table locked and core 0 released (R22, R40, R41, R355). The package
wakes on an enabled source, which WAKESRC records: it runs, with its clocks, the router is no longer held, and core 0 and the entering
core resume at P10 with outcome 0, no other core; memory returns when the controllers do, with the keys of every generation loaded
again (R298, R360, R421, R422).
Rests on choices of the model: log 43, log 82, log 106, log 124. -/
def Obligations.ClockStartAndWakeEvents : Prop :=
  (∀ s : State, s.power.pll = false → s.power.pwrgood = true → s.power.vaon = true → s.power.pkg = .running → s.power.errFatal = false →
    ∃ t, exec .pllLock s = .next t ∧ t.power = { s.power with pll := true } ∧ t.regs = s.regs ∧
      ∀ c, t.core c = if bitAt ((s.core c).crBase 0x211) 0 ∧ bitAt ((s.core c).crBase 0x211) 1 = false ∧ (s.core c).started = true
        then { s.core c with switching := true } else s.core c) ∧
  (∀ s : State, s.power.pll = true → s.power.errFatal = false → ∃ t, exec .pllLockLoss s = .next t ∧
    t.power = { s.power with pll := false, clocks := false, errFatal := true,
                             fatalCode := if s.power.fatalCode = 0 then 0x42 else s.power.fatalCode }) ∧
  (∀ (c : CoreId) (s : State), (s.core c).switching = true → s.power.clocks = true →
    let on := bitAt ((s.core c).crBase 0x211) 0
    ∃ t, exec (.clockSwitchDone c) s = .next t ∧
      t.cores = (s.setCore c { (s.core c).crPut 0x211 (setBit ((s.core c).crBase 0x211) 1 on) with switching := false }).cores ∧
      t.power.meshPll = (if c.val = 0 then on else s.power.meshPll) ∧ t.regs = s.regs) ∧
  (∀ (b : BootIn) (s t : State), startReady s = true → bootRom s b = some t → exec (.startup b) s = .next t ∧
    (b.selfTestOk = false → t.reg .wkBootstat 0 0 0 = 0x10F ∧ t.power.errFatal = true ∧ t.power.startDue = false) ∧
    (t.regF .wkBootstat 0 0 0 0 4 = 4 → t.power.clocks = true ∧ t.power.startDue = false ∧ t.power.causes = [] ∧
      t.reg .lvCorestart 0 0 0 = 1 ∧ tableLocked t = true ∧ t.wicket.running = true)) ∧
  (∀ (r : RailFail) (s : State), startReady s = true → railFails r = true → ∃ t, exec (.railEnableTimeout r) s = .next t ∧
    t.power.errFatal = true ∧ t.power.clocks = false ∧ t.power.startDue = false ∧
    (directory s.wicket.flash = none → t.reg .wkBootstat 0 0 0 = 0x20F) ∧
    (∀ d, directory s.wicket.flash = some d →
      (∀ n, n < 2 → (tries s.wicket.flash d n).any (fun i => imageOk s.wicket.fuses i (imgBody i)) = true) →
      t.reg .wkBootstat 0 0 0 = 0x70F)) ∧
  (∀ (i : Instr) (src : WakeSrc) (s : State),
    i = .packageWake src ∨ (i = .aonTimerWake ∧ src = .timer ∧ (s.reg .lvAoncmp 0 0 0).toNat ≤ s.now) ∨
      (i = .mgmtAddressMatch ∧ src = .i3c) ∨ (i = .wakeNFall ∧ src = .wakeN) →
    s.power.pkg ≠ .running → s.power.clocks = false → s.power.pwrgood = true → s.power.errFatal = false →
    s.power.memWait = true → s.stalled = false → wakeEnabled s src = true →
    ∃ t, exec i s = .next t ∧ t.power.pkg = .running ∧ t.power.clocks = true ∧ t.irt.held = false ∧ t.mem = s.mem ∧
      t.regF .lvWakesrc 0 0 0 (wakeBit src) 1 = 1 ∧
      ∀ c, (c = 0 ∨ s.power.entering = some c → (s.core c).started = true → ∀ rd, sleepReg (s.core c) = some rd →
          (t.core c).run = .running ∧ (t.core c).gr rd = 0 ∧ (t.core c).cur = 10) ∧
        (c ≠ 0 → s.power.entering ≠ some c → (t.core c).run = (s.core c).run ∧ (t.core c).g = (s.core c).g ∧ (t.core c).cur = (s.core c).cur)) ∧
  (∀ s : State, s.power.memWait = true → s.power.pkg = .running → s.power.pll = true → s.frozen = false →
    let keys := (s.wicket.gens.filter (fun p => p.2 != 0)).map (fun (p : Nat × Nat) => (p.1, memoryKey s.wicket.bootKey p.1 p.2))
    let z := (List.range 16).foldl (fun (u : State) n => if (u.mc n).filling then u else unparkMc u n) { s with keys := keys }
    ((memReady z).stalled = false → exec .selfRefreshExit s = .next (memReady z)) ∧
    (s.stalled = false → s.irt.late = [] → s.irt.lateRes = [] → exec .selfRefreshExit s = .next (memReady z))) ∧
  (∀ (n : Fin 16) (s : State), s.power.memWait = true → (s.mc n).filling = true → s.rootClock = true → s.keys ≠ [] →
    ((memReady (unparkMc s n)).stalled = false → exec (.rankFillDone n []) s = .next (memReady (unparkMc s n))) ∧
    (s.stalled = false → s.irt.late = [] → s.irt.lateRes = [] → exec (.rankFillDone n []) s = .next (memReady (unparkMc s n)))) ∧
  (∀ (n : Nat) (s : State) (v : W64) (l : List W64), (s.mc n).saved = v :: l →
    (unparkMc s n).reg .mcCtl n 0 0 = v ∧ ((unparkMc s n).mc n).saved = []) ∧
  (∀ s : State, s.mcs.all (fun p => p.2.saved.isEmpty) = true → s.irt.late = [] → s.irt.lateRes = [] →
    memReady s = { s with power := { s.power with memWait := false } })

/-! ## The voltage link, pins, the management bus (chapters 01 and 12) -/

/-- A frame's rail (none for all), its failing tries, command number and effect on a regulator (R30 Table 6). -/
def Sys2Proof.Machine.frameOf : Instr → Option (Option (Fin 9) × List LinkFail × Nat × (State → Nat → Vr → Vr))
  | .ping r f => some (some r, f, 0, fun _ _ v => v)
  | .setSlew r w f => some (r, f, 2, fun s _ v => { v with slew := w, base := v.out s.now, begin := max v.begin s.now })
  | .enable r on d f => some (r, f, 3, fun s n v => v.switch s.now n on d)
  | .setMode r m f => if m.toNat < 2 then some (r, f, 4, fun _ _ v => { v with mode := m }) else none
  | .readVout r x f => some (some r, f, 5, fun _ _ v => { v with vout := x })
  | .readIout r x f => some (some r, f, 6, fun _ _ v => { v with iout := x })
  | .readTemp r x f => some (some r, f, 7, fun _ _ v => { v with temp := x })
  | .clearStatus r m f => some (r, f, 9, fun _ _ v => { v with sticky := v.sticky &&& ~~~(m.extractLsb' 1 6) })
  | .readId r x f => some (some r, f, 10, fun _ _ v => { v with ident := x })
  | _ => none

/-- An acknowledged frame has its effect on its regulator, or on all nine; four failing tries or NAK-COMMAND log one VR_LINK record and
leave the regulators; SET_VID passes the codes of its rail's range only, and the output goes on from where it stands; a READ_STATUS with
a shutdown bit is fatal; a sweep whose frames are answered clears the sticky bits of every enabled regulator (R25, R28-R32, R35). A
raise whose READ_STATUS finds VOUT_OK ends with every waiting core of the die at its goal, one that finds a shutdown bit is fatal; a
raise that fails is retried, unless nothing wants it any more, with the voltage the die's cores then need (R33, R408).
Rests on choices of the model: log 25, log 49, log 50, log 107. -/
def Obligations.VoltageLinkCommands : Prop :=
  (∀ (i : Instr) (r : Fin 9) (fails : List LinkFail) (cmd : Nat) (f : State → Nat → Vr → Vr) (s : State), linkOn s = true →
    frameOf i = some (some r, fails, cmd, f) →
    (frameFate fails = none → exec i s = .next (s.setVr r (f s r (s.vr r)))) ∧
    (∀ kind, frameFate fails = some kind → exec i s =
      .next (s.logErr .notice 8 0 0x46 0 4095 (BitVec.ofNat 64 (r + kind * 2 ^ 5 + cmd * 2 ^ 8))))) ∧
  (∀ (i : Instr) (fails : List LinkFail) (cmd : Nat) (f : State → Nat → Vr → Vr) (s : State), linkOn s = true →
    frameOf i = some (none, fails, cmd, f) →
    ∃ t, exec i s = .next t ∧ ∀ r, r < 9 → t.vr r = f s r (s.vr r)) ∧
  (∀ (r : Fin 9) (code : Byte) (fails : List LinkFail) (s : State), linkOn s = true →
    (vidAllowed r code.toNat = true → frameFate fails = none →
      ((s.vr r).code ≠ code → exec (.setVid r code fails) s = .next (s.setVr r { s.vr r with
        code := code, base := (s.vr r).out s.now, begin := if (s.vr r).ramping s.now then s.now else s.now + 1200 })) ∧
      ((s.vr r).code = code → exec (.setVid r code fails) s = .next s)) ∧
    (vidAllowed r code.toNat = false → exec (.setVid r code fails) s =
      .next (s.logErr .notice 8 0 0x47 0 4095 (BitVec.ofNat 64 (r.val + code.toNat * 2 ^ 8))))) ∧
  (∀ (r : Fin 9) (fails : List LinkFail) (s : State), linkOn s = true → frameFate fails = none →
    let u := s.setVr r { s.vr r with status := BitVec.ofNat 16 (b2n (vrOk s r) + (s.vr r).sticky.toNat * 2) }
    ((s.vr r).sticky &&& 0b001110 = 0 → exec (.readStatus r fails) s = .next u) ∧
    ((s.vr r).sticky &&& 0b001110 ≠ 0 → ∃ t, exec (.readStatus r fails) s = .next t ∧ t.power.errFatal = true ∧
      t.power.clocks = false ∧ t.power.fatalCode = (if s.power.fatalCode = 0 then 0x41 else s.power.fatalCode) ∧ t.vr r = u.vr r)) ∧
  (∀ (raised : List (Fin 9 × BitVec 6)) (s : State), linkOn s = true → ∃ t, exec (.lvlAlertSweep raised []) s = .next t ∧
    ∀ r, r < 9 → (s.vr r).enabled = true → (t.vr r).sticky = 0 ∧ (t.vr r).code = (s.vr r).code) ∧
  (∀ (d : Fin 4) (fails : List LinkFail) (s : State), (s.raise d).busy = true → linkOn s = true →
    (∀ kind, frameFate fails = some kind → exec (.raiseVoutOk d fails) s =
      .next (s.logErr .notice 8 0 0x46 0 4095 (BitVec.ofNat 64 (d + kind * 2 ^ 5 + 8 * 2 ^ 8)))) ∧
    (frameFate fails = none → (s.vr d).shutdown = true → ∃ t, exec (.raiseVoutOk d fails) s = .next t ∧ t.power.errFatal = true ∧
      t.power.clocks = false ∧ t.power.fatalCode = (if s.power.fatalCode = 0 then 0x41 else s.power.fatalCode)) ∧
    (frameFate fails = none → (s.vr d).shutdown = false → ∃ t, exec (.raiseVoutOk d fails) s = .next t ∧ (t.raise d).busy = false ∧
      (t.raise d).fails = 0 ∧ (t.vr d).code = (s.vr d).code ∧ (t.vr d).base = codeOut (s.vr d).code.toNat ∧
      ∀ c, (look s.cores c).isSome = true → dieOf c = d → (s.core c).raising = true →
        t.core c = { s.core c with cur := (s.core c).goal, raising := false, raiseFail := false })) ∧
  (∀ (d : Fin 4) (fails : List LinkFail) (s : State), (s.raise d).busy = true → linkOn s = true →
    ∃ t, exec (.raiseFail d fails) s = .next t ∧
    t.raise d = { s.raise d with busy := false, retry := true, fails := (s.raise d).fails + 1 } ∧
    ∀ c, (look s.cores c).isSome = true → dieOf c = d → (s.core c).raising = true →
      t.core c = { s.core c with raising := false, raiseFail := true }) ∧
  (∀ (d : Fin 4) (s : State), (s.raise d).retry = true → linkOn s = true → s.power.clocks = true →
    let u := s.setRaise d { s.raise d with retry := false }
    (wantsRaise s d = false → exec (.raiseRetry d) s = .next u) ∧
    (wantsRaise s d = true → (s.raise d).busy = false →
      let q := (dieCores s d).foldl (fun s c => if follows (s.core c) ∧ (s.core c).goal < (s.core c).cur
        then s.setCore c { s.core c with raising := true } else s) s
      let ends (v : State) : State := v.setRaise d { v.raise d with retry := false }
      (dieNeed q d ≤ railStands s d → exec (.raiseRetry d) s = .next (ends (raiseDone q d))) ∧
      (railStands s d < dieNeed q d → exec (.raiseRetry d) s = .next (ends ((vrTarget q d (dieNeed q d)).setRaise d
        { s.raise d with busy := true, code := dieNeed q d, old := railStands s d })))))

/-- A GPIO edge changes the pin, and raises source 128 + n where its edge detector is enabled; WAKE_N raises source 5; each is also a wake
event where it is enabled to wake, which abandons a package entry and otherwise does nothing while the package runs; the management
target answers status, record, quote and certificate reads, and makes or refuses a quote, with an in-band interrupt (R15, R377, R426,
R443).
Rests on choices of the model: log 39, log 109. -/
def Obligations.PinsAndManagement : Prop :=
  (∀ (p : Fin 16) (lvl : Bool) (s : State), bitAt s.power.gpio p.val ≠ lvl → s.stalled = false →
    let k := if lvl then p.val else 16 + p.val
    let u : State := { s with power := { s.power with gpio := setBit s.power.gpio p.val lvl } }
    (bitAt (s.reg .lvGpiowake 0 0 0) k = false →
      (bitAt (s.reg .irtGpioedge 0 0 0) k = false → exec (.gpioEdge p lvl) s = .next u) ∧
      (bitAt (s.reg .irtGpioedge 0 0 0) k = true → s.power.clocks = true → (raiseEvent u (128 + p.val)).stalled = false →
        exec (.gpioEdge p lvl) s = .next (raiseEvent u (128 + p.val)))) ∧
    (let v := if bitAt (s.reg .irtGpioedge 0 0 0) k ∧ s.power.clocks = true then raiseEvent u (128 + p.val) else u
     v.stalled = false → v.power.errFatal = false → v.power.pkg = .running → bitAt (v.reg .lvGpiowake 0 0 0) k = true →
     bitAt (s.reg .lvGpiowake 0 0 0) k = true →
      (v.power.entering = none → exec (.gpioEdge p lvl) s = .next v) ∧
      (∀ c, v.power.entering = some c → exec (.gpioEdge p lvl) s = .next (abortEntry (noteWake v .gpio) c 0x13)))) ∧
  (∀ s : State, s.power.clocks = true → s.irt.late = [] → s.stalled = false → bitAt (s.reg .irtSrc 0 5 0) 4 = false →
    let v := s.raiseSource 5
    (bitAt (s.reg .lvPkgcfg 0 0 0) 9 = false → exec .wakeNFall s = .next v) ∧
    (bitAt (s.reg .lvPkgcfg 0 0 0) 9 = true → s.power.errFatal = false → s.power.pkg = .running →
      (s.power.entering = none → exec .wakeNFall s = .next v) ∧
      (∀ c, s.power.entering = some c → (abortEntry (noteWake v .wakeN) c 0x12).stalled = false →
        exec .wakeNFall s = .next (abortEntry (noteWake v .wakeN) c 0x12)))) ∧
  (∀ s : State, s.power.vaon = true → s.power.pkg = .running → exec .mgmtStatus s = .next (s.onWicket (fun w => { w with
    answer := leBytes 8 (s.reg .wkBootstat 0 0 0).toNat ++ leBytes 8 (theRecord s).bootSeq
      ++ [byte (b2n w.quoteReady + 2 * b2n w.quoteRefused)] }))) ∧
  (∀ (off : W32) (s : State), s.power.pkg = .running → wicketUp s = true → s.stalled = false →
    let u := s.wicketWorks
    exec (.mgmtRecordRead off) s = .next (u.onWicket (fun w => { w with answer := ((theRecord s).whole.drop off.toNat).take 256 })) ∧
    exec (.mgmtQuoteRead off) s = .next (u.onWicket (fun w => { w with answer := (s.wicket.quote.drop off.toNat).take 256 })) ∧
    exec (.mgmtCertRead off) s = .next (u.onWicket (fun w => { w with answer := (s.wicket.cert.drop off.toNat).take 256 }))) ∧
  (∀ (nonce : BitVec 256) (s : State), s.power.pkg = .running → wicketUp s = true → s.stalled = false →
    mbBusy s 0 = false → mbBusy s 1 = false →
    ∃ t, exec (.mgmtQuoteRequest nonce) s = .next t ∧ t.wicket.nonce = none ∧ t.wicket.served = 2 ∧
      t.wicket.answer = [] ∧ t.wicket.ibis = s.wicket.ibis + 1 ∧
      (let refused := !(theRecord s).isSealed || s.wicket.entropyBad
       t.wicket.quoteRefused = refused ∧ t.wicket.quoteReady = !refused))

/-! ## Homes, snoops, directories (chapter 07) -/

/-- The request of a row of R230, with the line and the first-level cache that asks for it. -/
def Sys2Proof.Machine.requestOf : Instr → Option (CoreId × BitVec 46 × Req × L1)
  | .readShared c l x => some (c, l, .readShared, x)
  | .readUnique c l => some (c, l, .readUnique, .d)
  | .upgrade c l => some (c, l, .upgrade, .d)
  | .claimLine c l => some (c, l, .claim, .d)
  | .writeFull c l d => some (c, l, .writeFull d 0, .d)
  | _ => none

/-- An L2 may send the request: it holds the line in S or O for Upgrade, and not at all for the others; no request of it for the line is
on its way, its own writeback of the line has been sent, and the limits of R236 and R233 leave room. -/
def Sys2Proof.Machine.maySend (s : State) (c l : Nat) (r : Req) (x : L1) : Prop :=
  (if r = .upgrade then (l2Of s c l).any (fun x => x.st == .s || x.st == .o) else (l2Of s c l).isNone) = true ∧
  s.power.clocks = true ∧ s.stalled = false ∧ outstanding s c l = false ∧ unsent s c l = false ∧ (regionOf (64 * l)).memory = true ∧
  populated s (64 * l) = true ∧ missFull s c x = false ∧ queueFull s l = false

/-- A request of an L2 that may make it, with the attributes it is issued with, is held at its stop without a token, and waits in the
conflict queue of a busy line; a core whose misses, or a home whose queue, are at their limit sends none (R230, R231, R233, R236, R254,
R286-R288). Else its home starts it; where no core and no LLC way holds the line, ReadShared and ReadUnique grant it in E, ClaimLine in
M, WriteFull leaves no copy; an Upgrade of the only holder grants M; a WriteFull of a line that the LLC holds replaces that copy. Memory
must not be waiting (R422).
Rests on choices of the model: log 77, log 113. -/
def Obligations.HomeRequestsComplete : Prop :=
  ∀ (i : Instr) (c : CoreId) (line : BitVec 46) (r : Req) (x : L1) (s : State), requestOf i = some (c, line, r, x) →
    let l := line.toNat
    let u := (s.event c 0x012 1).onCore c (fun k => { k with asks := put k.asks l x })
    let who := identOf u c
    let q : QReq := ⟨c, l, r, who⟩
    let w := if charged l r then takeToken u (c / 2) else u
    (missFull s c x = true ∨ queueFull s l = true ∨ unsent s c l = true → exec i s = .next s) ∧
    (maySend s c l r x → charged l r = true → stopHolds u (c / 2) = true →
      exec i s = .next { u with heldReqs := u.heldReqs ++ [⟨c / 2, c, l, r, who⟩] }) ∧
    (maySend s c l r x → (charged l r = true → stopHolds u (c / 2) = false) →
      (lineBusy w l = true → exec i s = .next { w with homeq := w.homeq ++ [q] }) ∧
      (lineBusy w l = false → queued w l = true → (serveNext { w with homeq := w.homeq ++ [q] } l).stalled = false →
        exec i s = .next (serveNext { w with homeq := w.homeq ++ [q] } l)) ∧
      (lineBusy w l = false → queued w l = false → s.power.memWait = false →
        exec i s = .next (homeStart w q) ∧
        (tableLocked s = false → llcFind s l = none → look s.dirs l = none → s.dirUse = [] →
          ∃ t, exec i s = .next t ∧ t.qos = who.qos ∧
            (∀ d, (t.core d).pc = (s.core d).pc ∧ (t.core d).g = (s.core d).g ∧ (t.core d).v = (s.core d).v ∧ (t.core d).m = (s.core d).m) ∧
            (r = .readShared ∨ r = .readUnique → (dirOf t l).holder = some c.val ∧
              ∃ y m, t.fills = s.fills ++ [⟨c, l, .e, some y, m⟩]) ∧
            (r = .claim → (dirOf t l).holder = some c.val ∧ ∃ y, t.fills = s.fills ++ [⟨c, l, .m, some y, false⟩]) ∧
            (∀ d p, r = .writeFull d p → t.fills = s.fills ∧ look t.dirs l = none)) ∧
        (tableLocked s = false → r = .upgrade → (∀ d, look s.dirs l = some d → holders d = [c.val]) → (look s.dirs l).isSome = true →
          ∃ t, exec i s = .next t ∧ (dirOf t l).holder = some c.val ∧ t.fills = s.fills ++ [⟨c, l, .m, none, false⟩]) ∧
        (tableLocked s = false → look s.dirs l = none → s.dirUse = [] → ∀ n y d p, r = .writeFull d p → llcFind s l = some (n, y) →
          y.c.one = 0 → y.c.two = 0 → ∃ t e, exec i s = .next t ∧ t.fills = s.fills ∧
            look t.llc (llcKey l n) = some { y with c := ⟨d, p, e, 0, 0⟩, dirty := true, lru := false })))

/-- A snooped core answers with its copy and keeps what the snoop leaves it; an answer that is not the last is removed from the
transaction, and with the last of a ReadUnique its data is granted. An Evict of S waits at its home behind the line's other work; another
evicted line goes through the writeback buffer: held without a token, in the queue while its home cannot take it, and else the home's, in
the LLC copy where there is one. Accepted victims, tokens and far atomics proceed (R94, R230-R233, R237-R239, R288). Memory must not be
waiting (R422), and but for tokens no other request waits at a home.
Rests on choices of the model: log 77, log 113, log 123. -/
def Obligations.CoherenceMessages : Prop :=
  (∀ (i : Instr) (c : CoreId) (line : BitVec 46) (k : Snp) (s : State) (t : Txn) (x : L2Line),
    (i = .snpShared c line ∧ k = .shared) ∨ (i = .snpUnique c line ∧ k = .unique) ∨ (i = .snpInv c line ∧ k = .inv) →
    let l := line.toNat
    let dirty := decide (x.st = .m ∨ x.st = .o)
    s.stalled = false → s.frozen = false → s.homeq = [] → s.fills.any (fun f => f.core == c && f.line == l) = false →
    look s.txns l = some t → t.snoops = [(c.val, k, .sent)] → look (s.core c).wbb l = none → look (s.core c).l2 l = some x →
    x.c.one = 0 → x.c.two = 0 → x.oneD = 0 → x.twoD = 0 → x.badI = false →
    let said : SnpSt := .answered (if k = .inv ∧ dirty = false then none else some x.c) dirty
    ∃ w, exec i s = .next w ∧ (∀ d, d ≠ c → w.core d = s.core d) ∧
      w.around = { s with txns := put s.txns l { t with snoops := [(c.val, k, said)] } }.around ∧
      CountsOnly (fun _ => false) { s.core c with l2 := match k with
        | .shared => put (s.core c).l2 l { x with st := afterShared x.st }
        | _ => del (s.core c).l2 l } (w.core c)) ∧
  (∀ (c : CoreId) (line : BitVec 46) (s : State) (t : Txn) (k : Snp) (dirty : Bool) (got : Option CLine) (rest : List (Nat × Snp × SnpSt)),
    let l := line.toNat
    s.stalled = false → s.frozen = false → s.homeq = [] → look s.txns l = some t → t.snoops = (c.val, k, .answered got dirty) :: rest →
    rest.all (fun x => x.1 != c) = true →
    (got = none → rest ≠ [] → exec (.snoopResponse c line) s = .next { s with txns := put s.txns l { t with snoops := rest } }) ∧
    (∀ x, got = some x → rest = [] → t.req = .readUnique → t.core < 192 → ∃ w, exec (.snoopResponse c line) s = .next w ∧
      look w.txns l = none ∧ (dirOf w l).holder = some t.core ∧
      w.fills = s.fills ++ [⟨t.core, l, if t.dirty || dirty then .m else .e, some { x with entry := t.entry }, false⟩])) ∧
  (∀ (i : Instr) (c : CoreId) (line : BitVec 46) (s : State) (x : L2Line) (dirty : Bool),
    (i = .writeBack c line ∧ dirty = true) ∨ (i = .evict c line ∧ dirty = false) →
    let l := line.toNat
    let z := s.event c 0x012 1
    let q : Core := { z.core c with l2 := del (z.core c).l2 l }
    s.stalled = false → s.frozen = false → s.power.memWait = false → s.homeq = [] → look (s.core c).l2 l = some x →
    decide (x.st = .m ∨ x.st = .o) = dirty → look (s.core c).wbb l = none → mayLeave s c l = true →
    x.c.one = 0 → x.c.two = 0 → x.oneD = 0 → x.twoD = 0 → x.badI = false → outstanding s c l = false →
    (x.st = .s → lineBusy s l = false → exec i s = .next (dirLeave (z.setCore c q) c l)) ∧
    (x.st = .s → lineBusy s l = true →
      exec i s = .next { z.setCore c q with homeq := [⟨c, l, .leave, identOf (z.setCore c q) c⟩] }) ∧
    (x.st ≠ .s →
      let b := z.setCore c { q with wbb := put (z.core c).wbb l (x.c, dirty) }
      let pays := dirty && chargedLine l
      let y := if pays then takeToken b (c / 2) else b
      (pays = true → stopHolds b (c / 2) = true →
        exec i s = .next { b with heldReqs := b.heldReqs ++ [⟨c / 2, c, l, .back, identOf b c⟩] }) ∧
      ((pays = true → stopHolds b (c / 2) = false) →
        (lineBusy y l = true ∨ allocWaits y l (qosOf y c) = true → exec i s = .next { y with homeq := [⟨c, l, .back, identOf y c⟩] }) ∧
        (lineBusy y l = false → allocWaits y l (qosOf y c) = false → exec i s = .next (takeWriteback y c l) ∧
          (let t := takeWriteback y c l
           (t.core c).l2 = del (s.core c).l2 l ∧ look (t.core c).wbb l = none ∧ (∀ d, d ≠ c → t.core d = s.core d) ∧
           (∀ n u, isVault l = false → s.victims = [] → llcFind s l = some (n, u) → u.c.one = 0 → u.c.two = 0 →
             look t.llc (llcKey l n) = some { u with c := x.c, dirty := dirty || u.dirty, lru := false })))))) ∧
  (∀ (sl : Fin 96) (line : BitVec 46) (s : State) (v : Victim), s.stalled = false → s.frozen = false → s.power.memWait = false → tableLocked s = false →
    s.homeq = [] → s.victims.find? (fun v => v.slice == sl.val && v.line == line.toNat) = some v →
    ∃ t, exec (.victimAccepted sl line) s = .next t ∧
      t.victims = s.victims.filter (fun x => !(x.slice == sl.val && x.line == line.toNat)) ∧
      (∀ w, v.incoming = some w → look t.llc (llcKey w.line v.way) = some w)) ∧
  (∀ (stop : Fin 132) (s : State) (q : HeldReq), s.heldReqs.find? (fun q => q.stop == stop.val) = some q → s.stalled = false → s.frozen = false →
    let w := takeToken { s with heldReqs := s.heldReqs.erase q } stop
    let r : QReq := ⟨q.core, q.line, q.req, q.who⟩
    (queueFull s q.line = true → exec (.regulatorToken stop) s = .next s) ∧
    (queueFull s q.line = false → lineBusy w q.line = true ∨ backWaits w r = true →
      exec (.regulatorToken stop) s = .next { w with homeq := w.homeq ++ [r] }) ∧
    (queueFull s q.line = false → lineBusy w q.line = false → backWaits w r = false → queued w q.line = false → (homeStart w r).stalled = false →
      exec (.regulatorToken stop) s = .next (homeStart w r))) ∧
  (∀ (c : CoreId) (s : State) (e : SbEnt) (rest : List SbEnt) (fn : AtFn) (dw far : Bool) (b : W64),
    (s.core c).sb = e :: rest → e.kind = .atomic fn dw far b → (far = true ∨ e.mt ≠ .wb) → (regionAt e.pa).memory = true →
    s.stalled = false → s.frozen = false → s.power.memWait = false →
    ∃ t, exec (.farAtomic c) s = .next t ∧ t = drainEntry (s.setCore c { s.core c with sb := rest }) c e ∧ (t.core c).sb = rest ∧
      (t.core c).g = (s.core c).g ∧ (t.core c).pc = (s.core c).pc)

/-! ## Commands that access registers -/

/-- The register a command writes, and the word (chapters 07 to 16). -/
def Sys2Proof.Machine.putOf (s : State) : Instr → Option (RegId × Nat × Nat × W64 × Attr)
  | .llcLockWrite n v x => some (.llcLock, n, 0, v, x)
  | .waymaskWrite n k v x => some (.llcWaymask, n, k, v, x)
  | .meshClockChange slow x => some (.meshClkcfg, 132, 0, b2w slow, x)
  | .elogptrRdWrite (.mc n) v x => some (.mcElogptr, n, 0, v, x)
  | .elogptrRdWrite .uncore v x => some (.meshElogptr, 132, 0, v, x)
  | .runClear b x => some ((ctlOf b).1, (ctlOf b).2, 0, 0, x)
  | .runSet b x => some ((ctlOf b).1, (ctlOf b).2, 0, 1, x)
  | .windowWrite w v x => some (.meshWin, 132, w, v, x)
  | .memregWrite n v x => some (.meshMemreg, n, 0, v, x)
  | .vaultRemapWrite n k v x => some (.vltRemap, n, k, v, x)
  | .baddevWrite n k v x => some (.mcBaddev, n, k, v, x)
  | .mcRemapWrite n k v x => some (.mcRemap, n, k, v, x)
  | .create k v x => some (.oecVictl, k, v, setFld 1 1 1 (s.regF .oecVictl k v 0 1 1), x)
  | .victlEnable k v en x => some (.oecVictl, k, v, BitVec.ofNat 64 (2 * b2n en), x)
  | .victlReset k v x => some (.oecVictl, k, v, setFld 4 1 1 (s.regF .oecVictl k v 0 1 1), x)
  | .destroy k v x => some (.oecVictl, k, v, setFld 8 1 1 (s.regF .oecVictl k v 0 1 1), x)
  | .preqWrite c l x => some (.lvPreq, 0, c, l.setWidth 64, x)
  | .blkpwrWrite v x => some (.lvBlkpwr, 0, 0, v, x)
  | .corestartWrite i v x => some (.lvCorestart, 0, i, v, x)
  | .tilerst t x => some (.lvTilerst, 0, 0, setBit (t.setWidth 64) 8 true, x)
  | .swdStart x => some (.ownSwdctl, 0, 0, setFld 1 16 16 (s.regF .ownSwdctl 0 0 0 16 16), x)
  | .swdkick v x => some (.ownSwdkick, 0, 0, v, x)
  | .tlockWrite x => some (.ownTlock, 0, 0, 1, x)
  | .swint n x => some (.irtSwint, 0, 0, n.setWidth 64, x)
  | .nwdStart x => some (.irtNwdctl, 0, 0, setFld 1 16 16 (s.regF .irtNwdctl 0 0 0 16 16), x)
  | .nwdkick v x => some (.irtNwdkick, 0, 0, v, x)
  | .uncontain k p x => some (.rcPortctl, k, p, setBit (s.reg .rcPortctl k p 0) 6 true, x)
  | .pmeto k p x => some (.rcPortctl, k, p, setBit (s.reg .rcPortctl k p 0) 5 true, x)
  | .ioinv (.rc k) sid all x => some (.rcIoinv, k, 0, setBit (setBit (sid.setWidth 64) 16 all) 17 true, x)
  | .ioinv (.oec k) sid all x => some (.oecIoinv, k, 0, setBit (setBit (sid.setWidth 64) 16 all) 17 true, x)
  | .sowninv k sid all x => some (.rcSowninv, k, 0, setBit (setBit (sid.setWidth 64) 16 all) 17 true, x)
  | .sresume k sid all x => some (.rcSresume, k, 0, setBit (sid.setWidth 64) 16 all, x)
  | .keyreq k i x => some (.rcIdectl, k, i, setBit (setBit (s.reg .rcIdectl k i 0) 12 true) 14 false, x)
  | _ => none

/-- The register a command reads for its effect, from which byte, and the bytes. -/
def Sys2Proof.Machine.getOf : Instr → Option (RegId × Nat × Nat × Nat × Nat × Attr)
  | .evcntRead n x => some (.llcEvcnt, n, 0, 0, 8, x)
  | .elogd0Read (.mc n) wd x => some (.mcElogd, n, 0, 0, widthBytes wd, x)
  | .elogd0Read .uncore wd x => some (.meshElogd, 132, 0, 0, widthBytes wd, x)
  | .keyoutRead k i x => some (.rcIdekeyout, k, i, 0, 8, x)
  | .rcRead (.mesh_deny n) wd x => some (.meshDeny, n, 0, 0, widthBytes wd, x)
  | .rcRead (.mesh_linkstat n d) wd x => some (.meshLinkstat, n, d, 0, widthBytes wd, x)
  | .rcRead .own_denycnt wd x => some (.ownDenycnt, 0, 0, 0, widthBytes wd, x)
  | .rcRead (.elogovf (.mc n)) wd x => some (.mcElogovf, n, 0, 0, widthBytes wd, x)
  | .rcRead (.elogovf .uncore) wd x => some (.meshElogovf, 132, 0, 0, widthBytes wd, x)
  | .rcRead (.vistat k v) wd x => some (.oecVistat, k, v, 32 / 8 / widthBytes wd * widthBytes wd, widthBytes wd, x)
  | .rcRead (.lanestat k) wd x => some (.oecLanestat, k, 0, 16 / 8 / widthBytes wd * widthBytes wd, widthBytes wd, x)
  | .rcRead (.iofltptr_rc k) wd x => some (.rcIofltptr, k, 0, 16 / 8 / widthBytes wd * widthBytes wd, widthBytes wd, x)
  | .rcRead (.iofltptr_oec k) wd x => some (.oecIofltptr, k, 0, 16 / 8 / widthBytes wd * widthBytes wd, widthBytes wd, x)
  | .rcRead .irt_dbrej wd x => some (.irtDbrej, 0, 0, 0, widthBytes wd, x)
  | .rcRead .irt_vfail wd x => some (.irtVfail, 0, 0, 0, widthBytes wd, x)
  | .rcRead .lv_wakesrc wd x => some (.lvWakesrc, 0, 0, 0, widthBytes wd, x)
  | .rcRead (.lv_rcnt r) wd x => some (.lvRcnt, 0, r, 0, widthBytes wd, x)
  | .rcRead (.shalt k) wd x => some (.rcShalt, k, 0, 32 / 8 / widthBytes wd * widthBytes wd, widthBytes wd, x)
  | _ => none

/-- Registers that hold settings alone. -/
def Sys2Proof.Machine.plainSetting : RegId → Bool
  | .mcKeep | .mcUethr | .mcElogsel | .meshQos | .meshLanethr | .meshLatmask | .meshElogsel | .oecViint | .rcCto | .rcSown | .rcIdeaddrbase
  | .rcIdeaddrlim | .irtCfg | .irtGpioedge | .lvSleepen | .lvPkgcfg | .lvGpiowake | .lvAoncmp | .lvPkglim | .ownClaim0 | .ownClaim1
  | .pmWincfg => true
  | _ => false

/-- While the mesh has a clock a command that accesses a register completes as that access of 8 bytes, or of its width, at the register's
address. A REGISTER_WRITE to a register that only holds settings takes its fields by their access codes, from an access of the
register's level; a lower one changes no setting; one that reaches a field above its level is counted by the serving stop (R6, R255, R259, R492).
Rests on choices of the model: log 18, log 22. -/
def Obligations.RegisterCommandsComplete : Prop :=
  (∀ (i : Instr) (s : State) (id : RegId) (n k : Nat) (v : W64) (x : Attr), putOf s i = some (id, n, k, v, x) → s.power.clocks = true →
    (regWrite s (regAddr id n k 0) 8 v x).stalled = false → exec i s = .next (regWrite s (regAddr id n k 0) 8 v x)) ∧
  (∀ (i : Instr) (s : State) (id : RegId) (n k off len : Nat) (x : Attr), getOf i = some (id, n, k, off, len, x) → s.power.clocks = true →
    (regRead s (regAddr id n k 0 + off) len x).1.stalled = false →
    exec i s = .next (regRead s (regAddr id n k 0 + off) len x).1) ∧
  (∀ (a : Pa) (wd : Width) (v : W64) (x : Attr) (s : State), s.power.clocks = true → regionOf a.toNat = .regs →
    a.toNat % widthBytes wd = 0 → (regWrite s a.toNat (widthBytes wd) v x).stalled = false →
    exec (.registerWrite a wd v x) s = .next (regWrite s a.toNat (widthBytes wd) v x)) ∧
  (∀ (k : Fin 4) (v : Fin 256) (off : BitVec 12) (d : W512) (x : Attr) (s : State), s.power.clocks = true →
    let a := 0xF000004800000 + k.val * 0x1000000 + v.val * 0x1000 + off.toNat
    (regWrite64 s a d x).stalled = false → exec (.portalSubmit k v off d x) s = .next (regWrite64 s a d x)) ∧
  (∀ (pa : Pa) (wd : Width) (v : W64) (x : Attr) (s : State) (a : RegAt), s.power.clocks = true → s.stalled = false →
    pa.toNat % widthBytes wd = 0 → portalAt pa.toNat = none → regAt (pa.toNat / 8 * 8) = some a → plainSetting a.d.id = true →
    ∃ t, exec (.registerWrite pa wd v x) s = .next t ∧ t.mem = s.mem ∧ t.cores = s.cores ∧
      (a.d.wlevel ≤ attrLevel x →
        t.reg a.d.id a.n a.k a.j = newValue s a (pa.toNat % 8) (widthBytes wd) v x) ∧
      (∀ i n k j, regAddr i n k j ≠ regAddr a.d.id a.n a.k a.j →
        i ≠ .meshDeny ∨ below a a.d.wlevel (pa.toNat % 8) (widthBytes wd) x = false → t.reg i n k j = s.reg i n k j) ∧
      (attrLevel x < a.d.wlevel → t.reg a.d.id a.n a.k a.j = s.reg a.d.id a.n a.k a.j) ∧
      (below a a.d.wlevel (pa.toNat % 8) (widthBytes wd) x = true →
        t.regF .meshDeny (servingStop a.d a.n) 0 0 0 16 = min (s.regF .meshDeny (servingStop a.d a.n) 0 0 0 16 + 1) 65535))

/-- A write of LOCK by PL2 or above of one slice is refused whole, sets REFUSED and counts, when it locks more than 12 ways or opens the
fill window on a locked way; else LOCK takes its value, and the lines of a way unlocked become the least recently used (R243, R244). -/
def Obligations.LlcLockRule : Prop :=
  ∀ (n : Fin 97) (v : W64) (x : Attr) (s : State), n.val < 96 → s.power.clocks = true → s.stalled = false → 2 ≤ attrLevel x →
    let bad := 12 < popc (v &&& 0xFFFF) ∨ (bitAt v 20 = true ∧ bitAt v (fld v 16 4) = true)
    let old := s.reg .llcLock n 0 0
    ∃ t, exec (.llcLockWrite n v x) s = .next t ∧ t.mem = s.mem ∧
      (bad → t.reg .llcLock n 0 0 = setBit old 21 true ∧
        t.regF .llcEvcnt n 0 0 48 16 = min (s.regF .llcEvcnt n 0 0 48 16 + 1) 65535 ∧ t.llc = s.llc) ∧
      (¬ bad → fld (t.reg .llcLock n 0 0) 0 21 = fld v 0 21 ∧
        ∀ p ∈ t.llc, p.1 / 32768 = n.val → bitAt old (p.1 % 16) = true → bitAt v (p.1 % 16) = false → p.2.lru = true)

/-- RUN: cleared by the normal world in a claimed block it sets REFUSED and stays 1; cleared otherwise it becomes 0; a block with no work
left becomes QUIESCED, a controller only after writing its queue; RUN set in a vault port clears QUIESCED; the router's RUN cleared recalls
every source presented (R260, R275, R341, R463).
Rests on choices of the model: log 67. -/
def Obligations.RunAndQuiesced : Prop :=
  (∀ (b : Block) (x : Attr) (s : State), s.power.clocks = true → s.stalled = false → blockRuns s b = true → 2 ≤ attrLevel x →
    ∃ t, exec (.runClear b x) s = .next t ∧
      (claimed s b = true ∧ attrSec x = false → blockRuns t b = true ∧ bitAt (t.reg (ctlOf b).1 (ctlOf b).2 0 0) 1 = true) ∧
      (claimed s b = false ∨ attrSec x = true → blockRuns t b = false ∧ (b = .irt → t.irt.shown = []))) ∧
  (∀ (n : Fin 96) (x : Attr) (s : State), s.power.clocks = true → s.stalled = false → blockRuns s (.vlt n) = false → 2 ≤ attrLevel x →
    ∃ t, exec (.runSet (.vlt n) x) s = .next t ∧ blockRuns t (.vlt n) = true ∧ quiesced t (.vlt n) = false) ∧
  (∀ (b : Block) (s : State), s.power.clocks = true → s.stalled = false → blockRuns s b = false → inFlight s b = false →
    ∃ t, exec (.blockQuiesced b) s = .next t ∧ quiesced t b = true ∧ (∀ n, b = .mc n → (t.mc n).wq = []))

/-! ## Mesh, vault and memory controllers (chapters 08 to 10) -/

/-- The part is supplied and no fatal error has stopped it. -/
def supplied (s : State) : Prop := s.power.errFatal = false ∧ s.power.pwrgood = true ∧ s.power.vaon = true

/-- A failing flit counts a replay; the 16th failed send of one flit in a row is fatal with the link failed; lane error counts end with their window;
the window's end of a stop latches its counts (R257, R258, R472). While the part is supplied and not stopped, a stored bit that changes marks the word, byte or symbol it stands
in, and changes no data; a double upset of a tag is fatal (R303, R474).
Rests on choices of the model: log 71. -/
def Obligations.MeshAndUpsetEvents : Prop :=
  (∀ (n : Fin 132) (d : Fin 4) (again : Bool) (lanes : List (Fin 3 × Fin 64)) (s : State), s.power.clocks = true → bitAt (linkstat s n d) 29 = false →
    bitAt (linkstat s n d) 30 = false →
    let sends := if again then (s.link (4 * n + d)).sends + 1 else 1
    ∃ t, exec (.replayRequest n d again lanes) s = .next t ∧
      (t.reg .meshLinkstat n d 0).toNat % 2 ^ 16 = min (s.regF .meshLinkstat n d 0 0 16 + 1) 65535 ∧
      (t.link (4 * n + d)).sends = sends ∧ (sends ≠ 16 → t.power = s.power) ∧
      (sends = 16 → t.power.errFatal = true ∧ t.power.clocks = false ∧
        bitAt (t.reg .meshLinkstat n d 0) 29 = true)) ∧
  (∀ s : State, s.frozen = false → ∃ t, exec .lanethrWindowEnd s = .next t ∧ t.regs = s.regs ∧
    ∀ i, (t.link i).errs = [] ∧ (t.link i).sends = (s.link i).sends) ∧
  (∀ (n : Fin 132) (s : State), s.frozen = false → bitAt (s.reg .pmWincfg n 0 0) 0 = true →
    s.now % (s.regF .pmWincfg n 0 0 1 14 * 1200) = 0 → s.reg .pmWinend n 0 0 ≠ BitVec.ofNat 64 s.now → ∃ t, exec (.pmWindowEnd n) s = .next t ∧
    lookD [] t.pm n = [] ∧ t.reg .pmWinend n 0 0 = BitVec.ofNat 64 s.now ∧
    t.reg .pmWinseq n 0 0 = BitVec.ofNat 64 ((s.regF .pmWinseq n 0 0 0 32 + 1) % 2 ^ 32) ∧
    (memoryStop n = true → t.reg .pmMem n 0 0 =
      BitVec.ofNat 64 (lookD 0 (lookD [] s.pm n) 4 % 2 ^ 32 + lookD 0 (lookD [] s.pm n) 5 % 2 ^ 32 * 2 ^ 32))) ∧
  (∀ (c : CoreId) (line : BitVec 46) (w : Fin 8) (s : State) (x : L2Line), supplied s → look (s.core c).l2 line.toNat = some x → bitAt x.c.one w = false →
    exec (.transientUpset (.l2Data c line w false)) s = .next (s.setCore c { s.core c with
      l2 := put (s.core c).l2 line.toNat { x with c := { x.c with one := setBit x.c.one w true } } })) ∧
  (∀ (pa : Pa) (s : State), supplied s → regionOf pa.toNat = .vault → bitAt (s.note (pa.toNat / 64)).v1 (pa.toNat % 64) = false →
    exec (.transientUpset (.vault pa false)) s = .next (s.setNote (pa.toNat / 64)
      { s.note (pa.toNat / 64) with v1 := setBit (s.note (pa.toNat / 64)).v1 (pa.toNat % 64) true })) ∧
  (∀ (u : Upset) (s : State), ∃ t, exec (.transientUpset u) s = .next t ∧ t.mem = s.mem ∧ (¬ supplied s → t = s) ∧
    ∀ c, (t.core c).g = (s.core c).g ∧ (t.core c).v = (s.core c).v ∧ (t.core c).pc = (s.core c).pc) ∧
  (∀ (c : CoreId) (set : Fin 2048) (s : State), supplied s → ∃ t, exec (.transientUpset (.l2Tag c set true)) s = .next t ∧
    t.power.errFatal = true ∧ t.power.clocks = false)

/-- Requests that pass their check reach the vault port or the controller; those that fail it are counted by their kind; a controller's
queue drains whole; copies that remap entries ask for are made (R263, R266, R275, R281, R316, R331). A controller's queued write
forwards to a later read of its line under the same key (R280, R289, R291).
Rests on choices of the model: log 5, log 21. -/
def Obligations.MemoryRequestsComplete : Prop :=
  (∀ (line : BitVec 46) (x : Attr) (s w : State), isVault line.toNat = true → s.power.clocks = true → w.stalled = false →
    let u : State := { s with qos := x.qos.toNat }
    (∀ y, homeRead u line.toNat x.secure x.owner.toNat = (w, .ok y) → exec (.vaultRequest line .read x) s = .next w) ∧
    (∀ d en p, homeWrite u line.toNat x.secure x.owner.toNat d en.toNat p = (w, .ok ()) →
      exec (.vaultRequest line (.write d en p) x) s = .next w) ∧
    (∀ d en p e, homeWrite u line.toNat x.secure x.owner.toNat d en.toNat p = (w, .error e) →
      exec (.vaultRequest line (.write d en p) x) s = .next (deniedWrite w (64 * line.toNat) x))) ∧
  (∀ (line : BitVec 46) (x : Attr) (s : State), isVault line.toNat = true → s.power.clocks = true → s.stalled = false →
    let u : State := { s with qos := x.qos.toNat }
    s.power.memWait = false → tableLocked s = false → settleLine u line.toNat = u → look s.dirs line.toNat = none →
    llcFind s line.toNat = none →
    (∃ t, exec (.vaultRequest line .read x) s = .next t ∧ t.mem = s.mem ∧ t.cores = s.cores) ∧
    (∀ d en p, ∃ t, exec (.vaultRequest line (.write d en p) x) s = .next t ∧ t.cores = s.cores ∧
      t.mem = writeStored s.mem line.toNat (mergeBytes (readStored s.mem line.toNat) d en.toNat))) ∧
  (∀ (line : BitVec 46) (x : Attr) (s : State), dramLine s line.toNat = true → s.stalled = false → tableLocked s = false →
    let u : State := { s with qos := x.qos.toNat }
    exec (.mcRead line x) s = .next (mcReadLine u (chanOf s line.toNat) line.toNat x.owner.toNat).1 ∧
    (∀ d p, exec (.mcWrite line d p (some x)) s = .next (mcWriteLine u (chanOf s line.toNat) line.toNat x.owner.toNat d p))) ∧
  (∀ (line : BitVec 46) (x : Attr) (s w : State) (ko : Nat) (e : W16), dramLine s line.toNat = true →
    let u : State := { s with qos := x.qos.toNat }
    (targetCheck u line.toNat x.secure x.owner.toNat false = (w, .ok (ko, e)) →
      (mcReadLine w (chanOf w line.toNat) line.toNat ko).1.stalled = false →
      exec (.mcRead line x) s = .next (mcReadLine w (chanOf w line.toNat) line.toNat ko).1) ∧
    (∀ d p, targetCheck u line.toNat x.secure x.owner.toNat true = (w, .ok (ko, e)) →
      (mcWriteLine w (chanOf w line.toNat) line.toNat ko d p).stalled = false →
      exec (.mcWrite line d p (some x)) s = .next (mcWriteLine w (chanOf w line.toNat) line.toNat ko d p)) ∧
    (∀ d p, (writeUnowned s line.toNat 0x1000 d p).stalled = false →
      exec (.mcWrite line d p none) s = .next (writeUnowned s line.toNat 0x1000 d p))) ∧
  (∀ (n : Fin 16) (s : State), s.rootClock = true → ∃ t, exec (.writeQueueDrain n) s = .next t ∧ (t.mc n).wq = []) ∧
  (∀ (n : Fin 96) (k : Fin 8) (s : State), bitAt (s.reg .vltRemap n k 0) 0 = true → bitAt (s.reg .vltRemap n k 0) 28 = false →
    s.power.clocks = true → s.stalled = false → s.homeq = [] →
    ∃ t, exec (.vaultRemapDone n k) s = .next t ∧ bitAt (t.reg .vltRemap n k 0) 28 = true ∧ t.mem = s.mem) ∧
  (∀ (n k : Fin 16) (m : PubMap) (s : State), s.rootClock = true → s.map = some m → bitAt (s.reg .mcRemap n k 0) 0 = true → bitAt (s.reg .mcRemap n k 0) 55 = false →
    ∃ t, exec (.remapDone n k) s = .next t ∧ bitAt (t.reg .mcRemap n k 0) 55 = true) ∧
  (∀ (s : State) (n line ko : Nat) (d : W512), bitAt (s.reg .mcCtl n 0 0) 0 = true → (keyOf s ko).isSome = true →
    (mcReadLine (mcWriteLine s n line ko d 0) n line ko).2 = (d, 0))

/-- Refresh owed and issued, temperature and its limit, parity replays and the fourth failure, which poisons the reads pending in the rank, counting windows, overdue laps and scrub
reads of a controller or vault port, whose lap ends with its last line; ZQ calibration changes nothing (R271, R283-R285, R299, R317, R318).
Rests on choices of the model: log 76. -/
def Obligations.ControllerEvents : Prop :=
  (∀ (n : Fin 16) (r : Fin 8) (b : Fin 4) (busy : Bool) (s : State), (s.mc n).trained = true → mapOnly s n = false → s.rootClock = true →
    let owed := lookD [] (s.mc n).debt r ++ [b.val]
    ∃ t, exec (.refreshDue n r b busy) s = .next t ∧ t.mem = s.mem ∧
      lookD [] (t.mc n).debt r = (if busy = false then [] else if 16 ≤ owed.length then owed.drop (owed.length - 8) else owed)) ∧
  (∀ (n : Fin 16) (r : Fin 8) (s : State), exec (.zqCalibration n r) s = .next s) ∧
  (∀ (n : Fin 16) (a b c : Nat) (s : State), s.rootClock = true → (s.mc n).fails = [0, 0, 0] → ∃ t,
    exec (.dimmThermalRead n [some a, some b, some c]) s = .next t ∧ (t.mc n).temp = max a (max b c) ∧
      (t.mc n).hot = decide (95 < max a (max b c)) ∧ t.mem = s.mem) ∧
  (∀ (n : Fin 16) (line : BitVec 46) (m : PubMap) (s : State), s.map = some m → dramLine s line.toNat = true →
    (dramAt m line.toNat).chan = n.val →
    let r := (dramAt m (locOf s n line.toNat)).rank
    let k := lookD 0 (s.mc n).parity r
    ∃ t, exec (.chnAlert n line) s = .next t ∧ lookD 0 (t.mc n).parity r = (if k < 3 then k + 1 else 0) ∧ t.mem = s.mem ∧
      (∀ f x, 3 ≤ k → f ∈ t.fills → f.mem = true → regionOf (64 * f.line) = .dram → (dramAt m (locOf s n f.line)).chan = n.val →
        (dramAt m (locOf s n f.line)).rank = r → f.c = some x → x.poison = allPoison)) ∧
  (∀ (n : Fin 16) (s : State), s.rootClock = true → exec (.uethrWindowEnd n) s = .next (s.setMc n { s.mc n with ueCount := 0, devCount := [] })) ∧
  (∀ (n : Fin 16) (s : State), s.rootClock = true → (s.mc n).lapStart ≠ 0 → bitAt (s.reg .mcScrubstat n 0 0) 32 = false →
    ∃ t, exec (.scrubOverdue (.mc n)) s = .next t ∧ bitAt (t.reg .mcScrubstat n 0 0) 32 = true ∧ t.mem = s.mem) ∧
  (∀ (n : Fin 16) (sub : Bool) (s : State), scrubs (lapBegin s (.mc n)) (.mc n) = true →
    exec (.scrubRead (.mc n) sub) s = .next (scrubMc (lapBegin s (.mc n)) n n.isLt sub)) ∧
  (∀ (n : Fin 96) (sub : Bool) (s : State), scrubs (lapBegin s (.vlt n)) (.vlt n) = true →
    let t := scrubVlt (lapBegin s (.vlt n)) n n.isLt
    exec (.scrubRead (.vlt n) sub) s = .next t ∧
    (∀ b line, portLine n 98304 (lookD ⟨0, 0⟩ (lapBegin s (.vlt n)).vlts n).scrub = some (b, line) → portLine n 98304 (b + 1) = none →
      bitAt (t.reg .vltScrubstat n 0 0) 33 = true))

/-! ## Offload complexes (chapter 13) -/

/-- The end of an instance reset sets RESETDONE and returns the credits; a free lane takes the descriptor that the shares of R399 choose,
which ends at once with NOLANE or BADDESC where it must; a running lane does its work and keeps the outcome; a completion frees the
lane (R386, R387, R389, R399-R402).
Rests on choices of the model: log 8, log 73, log 74, log 102. -/
def Obligations.OffloadCommandsComplete : Prop :=
  (∀ (k : Fin 4) (v : Fin 256) (s : State), viState s k v = 3 → s.stalled = false → s.frozen = false →
    ∃ t, exec (.instanceResetDone k v) s = .next t ∧ viState t k v = 1 ∧ bitAt (t.reg .oecVistat k v 0) 17 = true ∧
      fld (t.reg .oecVistat k v 0) 0 17 = 0 ∧ t.vi k v = { Vi.reset with free := creditsOf s k v, vt := (s.vi k v).vt } ∧
      t.mem = s.mem) ∧
  (∀ (k : Fin 4) (l : Fin 8) (s : State) (v q seq : Nat) (d : W512) (rest : List (Nat × W512)),
    let u := updateCand s k
    s.stalled = false → oecOn s k = true → blockRuns s (.oec k) = true → (s.lane k l).job = none →
    (laneUsable s k l = true ∨ anyLane s k = false) → pickVi u k = some v → pickQueue u k v = some q →
    lookD [] (u.vi k v).queues q = (seq, d) :: rest →
    ∃ t, exec (.laneSlot k l) s = .next t ∧ t.mem = s.mem ∧ lookD [] (t.vi k v).queues q = rest ∧ (t.vi k v).turn = (q + 1) % 16 ∧
      (t.lane k l).job = some ⟨v, q, seq, d,
        if anyLane s k = false then some { Outcome.plain stNoLane with crcrun := crcStart d }
        else if badDesc d = true then some { Outcome.plain stBadDesc with crcrun := crcStart d } else none⟩) ∧
  (∀ (i : Instr) (k : Fin 4) (l : Fin 8) (cycles op : Nat) (s u : State) (j : Job) (o : Outcome),
    (i = .compress k l cycles ∧ op = 1) ∨ (i = .decompress k l cycles ∧ op = 2) ∨ (i = .crc k l cycles ∧ op = 3) →
    oecOn s k = true → (s.lane k l).job = some j → j.result = none → descOp j.desc = op → runJob s k l j = (u, o) → u.stalled = false →
    ∃ t, exec i s = .next t ∧ (t.lane k l).job = some { j with result := some o } ∧ t.mem = u.mem ∧ t.cores = u.cores ∧
      (t.vi k j.vi).vt = (u.vi k j.vi).vt + cycles * (vtScale / max 1 (u.regF .oecVicfg k j.vi 0 32 8))) ∧
  (∀ (k : Fin 4) (l : Fin 8) (s : State) (j : Job) (o : Outcome), oecOn s k = true → (s.lane k l).job = some j → j.result = some o →
    let u := completeJob s k l j o
    u.stalled = false →
    ∃ t, exec (.completionRecord k l) s = .next t ∧ (t.lane k l).job = none ∧ bitAt (t.reg .oecLanestat k 0 0) (8 + l) = false ∧
      t.mem = u.mem)

/-! ## The mailbox (chapter 12) -/

/-- Command `i` served from `s` ends on channel `ch` of `u` with a status and a result. -/
def Sys2Proof.Machine.Finishes (i : Instr) (s u : State) (ch status result : Nat) : Prop :=
  (mbEnd u ch status result).stalled = false → exec i s = .next (mbEnd u ch status result)

/-- Commands of both channels, in their turn: INFO, EXTEND, ROM_CHECK, SEAL, QUOTE, LOG_READ and CERT_READ end with the status and the
result of Table 14; a buffer that cannot be accessed gives ACCESS (R363-R367, R370, R372-R376).
Rests on choices of the model: log 31, log 32, log 33, log 34, log 105. -/
def Obligations.MailboxRecordCommandsComplete : Prop :=
  (∀ (ch : Fin 2) (s : State), mbTurn s ch 1 = true →
    (∀ w, mbOut s ch ((theRecord s).header.take 128) = some w → Finishes (.info ch) s w ch 0 (theRecord s).length) ∧
    (mbOut s ch ((theRecord s).header.take 128) = none → Finishes (.info ch) s s ch 4 0)) ∧
  (∀ (ch : Fin 2) (s u w : State) (l e : List Byte), mbTurn s ch 2 = true → mbIn s ch 40 = (u, some l) →
    0x8000 ≤ numAt l 0 2 → numAt l 4 4 ≤ 1024 → mbIn u ch (eventSize (numAt l 4 4)) = (w, some e) →
    let r := theRecord w
    let mr := numAt e 2 1
    let n := numAt e 4 4
    let dig : BitVec 256 := BitVec.ofNat 256 (numAt e 8 32)
    let flags := 2 * ch.val
    (23 < mr → mr ≠ 0xFF → Finishes (.extend ch) s w ch 3 0) ∧
    (mr < 8 → Finishes (.extend ch) s w ch 2 0) ∧
    (8 ≤ mr → mr < 16 → r.isSealed = true → Finishes (.extend ch) s w ch 6 0) ∧
    ((8 ≤ mr ∧ mr ≤ 23) ∨ mr = 0xFF → (mr < 16 → r.isSealed = false) → r.fits (eventSize n) = true →
      (r.isSealed = false → Finishes (.extend ch) s (w.onRecord (fun r => r.log (numAt e 0 2) mr flags dig (bytesAt e 40 n))) ch 0 r.count) ∧
      (r.isSealed = true → Finishes (.extend ch) s (w.onRecord (fun r => r.logLate (numAt e 0 2) mr flags dig (bytesAt e 40 n))) ch 0 r.rtCount))) ∧
  (∀ (ch : Fin 2) (s u : State) (l : List Byte), mbTurn s ch 3 = true → mbIn s ch (max 8 (mbLen s ch)) = (u, some l) →
    let dig := digest (l.drop 8)
    let ok : Bool := !bitAt u.wicket.config 32 || u.wicket.allow.contains dig
    let r := theRecord u
    (r.fits (eventSize 8) = false → Finishes (.romCheck ch) s u ch 5 0) ∧
    (r.fits (eventSize 8) = true → r.isSealed = false →
      Finishes (.romCheck ch) s (u.onRecord (fun r => r.log 5 8 (b2n !ok + 2 * ch) dig (l.take 8))) ch 0 (b2n ok)) ∧
    (r.fits (eventSize 8) = true → r.isSealed = true →
      Finishes (.romCheck ch) s (u.onRecord (fun r => r.logLate 5 16 (b2n !ok + 2 * ch) dig (l.take 8))) ch 0 (b2n ok))) ∧
  (∀ (ch : Fin 2) (s : State), mbTurn s ch 4 = true →
    let r := { theRecord s with isSealed := true, sealTime := BitVec.ofNat 64 s.now }
    ((theRecord s).isSealed = true → Finishes (.seal ch) s s ch 6 0) ∧
    ((theRecord s).isSealed = false → s.wicket.entropyBad = true → Finishes (.seal ch) s s ch 8 0) ∧
    (∀ u sig, (theRecord s).isSealed = false → s.wicket.entropyBad = false → signAs s "Iaton Selvedge" r.bytes = (u, sig) →
      Finishes (.seal ch) s (setPhase (u.onWicket (fun w => { w with record := some { r with sig := sig }, chainDue := true })) 5) ch 0
        r.length)) ∧
  (∀ s : State, s.wicket.chainDue = true → wicketUp s = true →
    let t := (s.onWicket (fun w => { writeChain w w.startSeq (theRecord s).bootSeq (theRecord s).digest with chainDue := false })).wicketWorks
    exec .chainAreaWrite s = .next t ∧ t.wicket.chainDue = false ∧ t.wicket.record = s.wicket.record ∧ t.mem = s.mem) ∧
  (∀ (ch : Fin 2) (s u w z : State) (nonce q : List Byte), mbTurn s ch 5 = true →
    ((theRecord s).isSealed = false → Finishes (.quote ch) s s ch 2 0) ∧
    ((theRecord s).isSealed = true → (bufCheck s ch 17968 true).2 = true → mbIn s ch 32 = (u, some nonce) → u.wicket.entropyBad = false →
      makeQuote u (theRecord u) ch nonce = (w, q) → mbOut w ch q = some z → Finishes (.quote ch) s z ch 0 17968)) ∧
  (∀ (ch : Fin 2) (s u w : State) (l : List Byte), mbTurn s ch 6 = true → mbIn s ch 8 = (u, some l) →
    let all := if numAt l 0 4 = 0 then (theRecord u).whole else (theRecord u).rt
    (1 < numAt l 0 4 → Finishes (.logRead ch) s u ch 3 0) ∧
    (numAt l 0 4 ≤ 1 → mbOut u ch ((all.drop (numAt l 4 4)).take (mbLen u ch)) = some w → Finishes (.logRead ch) s w ch 0 all.length)) ∧
  (∀ (ch : Fin 2) (s w : State), mbTurn s ch 7 = true → bufOk s ch 7920 = true → mbOut s ch s.wicket.cert = some w →
    Finishes (.certRead ch) s w ch 0 s.wicket.cert.length)

/-- Commands of channel 1, in their turn: keys, memory health, fuses and RESET; on channel 0 they, and unassigned codes on both, give
BADCMD. Completion clears BUSY and GO and sets DONE, STATUS and RESULT (R347, R359, R361, R362, R374-R376).
Rests on choices of the model: log 31, log 35, log 37, log 38, log 105, log 106. -/
def Obligations.MailboxSecureCommandsComplete : Prop :=
  (∀ (s : State) (ch status result : Nat), ch < 2 → s.wicket.nonce = none → bitAt (s.reg .wkMbstat 0 ch 0) 1 = true →
    let t := mbEnd s ch status result
    t.reg .wkMbstat 0 ch 0 = BitVec.ofNat 64 (2 + status * 2 ^ 8 + result % 2 ^ 32 * 2 ^ 32) ∧ bitAt (t.reg .wkMbcmd 0 ch 0) 8 = false ∧
      t.mem = s.mem ∧ t.cores = s.cores ∧ t.wicket.served = ch) ∧
  (∀ (s u : State) (l : List Byte), mbIn s 1 2 = (u, some l) →
    let o := numAt l 0 2
    let g := lookD 0 u.wicket.gens o
    (mbTurn s 1 0x20 = true → (4095 < o → Finishes (.keyGen 1) s u 1 3 0) ∧ (o < 2 ∨ o = 4095 → Finishes (.keyGen 1) s u 1 2 0) ∧
      (2 ≤ o → o < 4095 → g = 65535 → Finishes (.keyGen 1) s u 1 5 0) ∧
      (2 ≤ o → o < 4095 → g ≠ 65535 → Finishes (.keyGen 1) s
        { u.onWicket (fun w => { w with gens := put w.gens o (g + 1) }) with
          keys := put u.keys o (memoryKey u.wicket.bootKey o (g + 1)) } 1 0 (g + 1))) ∧
    (mbTurn s 1 0x21 = true → 2 ≤ o → o < 4095 → Finishes (.keyClear 1) s
      { u.onWicket (fun w => { w with gens := put w.gens o 0 }) with keys := del u.keys o } 1 0 0)) ∧
  (∀ (s u : State) (l : List Byte), mbTurn s 1 0x22 = true → mbIn s 1 16 = (u, some l) →
    let e := entryOf l
    let old := healthList u.wicket
    (e.typ.toNat < 2 ∨ 4 < e.typ.toNat → Finishes (.healthAdd 1) s u 1 3 0) ∧
    (2 ≤ e.typ.toNat → e.typ.toNat ≤ 4 → old.contains e = true → Finishes (.healthAdd 1) s (u.onWicket (fun w => writeHealth w old)) 1 0 old.length) ∧
    (2 ≤ e.typ.toNat → e.typ.toNat ≤ 4 → old.contains e = false → 4096 ≤ old.length → Finishes (.healthAdd 1) s u 1 5 0) ∧
    (2 ≤ e.typ.toNat → e.typ.toNat ≤ 4 → old.contains e = false → old.length < 4096 → Finishes (.healthAdd 1) s
      (u.onWicket (fun w => writeHealth w (old ++ [e]))) 1 0 (old.length + 1))) ∧
  (∀ (s w : State), mbTurn s 1 0x23 = true → mbOut s 1 (healthHeader s.wicket ++ healthBytes s.wicket) = some w →
    Finishes (.healthRead 1) s w 1 0 (healthList s.wicket).length) ∧
  (∀ (s u : State) (l : List Byte), mbTurn s 1 0x24 = true → mbIn s 1 1 = (u, some l) →
    let c := numAt l 0 1
    let rest := (healthList u.wicket).filter (fun e => e.ch != byte c)
    c < 16 ∨ c = 0xFF → Finishes (.healthDrop 1) s (u.onWicket (fun w => writeHealth w rest)) 1 0 rest.length) ∧
  (∀ (s u : State) (l : List Byte) (blown : Bool), mbIn s 1 1 = (u, some l) →
    let n := numAt l 0 1
    (mbTurn s 1 0x25 = true →
      let svn := lookD 0 u.wicket.svns n
      let now := floorOf u.wicket.fuses n
      (5 < n → Finishes (.svnCommit 1 blown) s u 1 3 0) ∧
      (n ≤ 5 → svn ≤ now → Finishes (.svnCommit 1 blown) s u 1 0 now) ∧
      (n ≤ 5 → now < svn → blown = false → Finishes (.svnCommit 1 blown) s u 1 7 0) ∧
      (n ≤ 5 → now < svn → svn ≤ 64 → blown = true → ∃ f : Fuses, floorOf f n = svn ∧ (∀ m, m ≠ n → floorOf f m = floorOf u.wicket.fuses m) ∧
        f.vrevoke = u.wicket.fuses.vrevoke ∧ f.okey = u.wicket.fuses.okey ∧
        Finishes (.svnCommit 1 blown) s (u.onWicket (fun w => { w with fuses := f })) 1 0 svn)) ∧
    (mbTurn s 1 0x26 = true →
      let v := u.wicket.fuses.vrevoke
      (3 < n → Finishes (.revoke 1 blown) s u 1 3 0) ∧
      (n ≤ 3 → n = u.wicket.slot → Finishes (.revoke 1 blown) s u 1 2 0) ∧
      (n ≤ 3 → n ≠ u.wicket.slot → bitAt v n = true → Finishes (.revoke 1 blown) s u 1 0 v.toNat) ∧
      (n ≤ 3 → n ≠ u.wicket.slot → bitAt v n = false → setBit v n true = 15 → Finishes (.revoke 1 blown) s u 1 2 0) ∧
      (n ≤ 3 → n ≠ u.wicket.slot → bitAt v n = false → setBit v n true ≠ 15 →
        (blown = false → Finishes (.revoke 1 blown) s u 1 7 0) ∧
        (blown = true → Finishes (.revoke 1 blown) s
          (u.onWicket (fun w => { w with fuses := { w.fuses with vrevoke := setBit v n true } })) 1 0 (setBit v n true).toNat)))) ∧
  (∀ (s u : State) (l : List Byte) (blown : Bool), mbTurn s 1 0x27 = true → mbIn s 1 32 = (u, some l) →
    (u.wicket.fuses.okey ≠ 0 → Finishes (.ownerKey 1 blown) s u 1 2 0) ∧
    (u.wicket.fuses.okey = 0 → blown = false → Finishes (.ownerKey 1 blown) s u 1 7 0) ∧
    (u.wicket.fuses.okey = 0 → blown = true → Finishes (.ownerKey 1 blown) s
      (u.onWicket (fun w => { w with fuses := { w.fuses with okey := BitVec.ofNat 256 (leNat l) } })) 1 0 0)) ∧
  (∀ s : State, mbTurn s 1 0x28 = true → warmAllowed s = true → ∃ t, exec (.reset 1) s = .next t ∧ t.power.restart = true ∧
    t.power.causes = s.power.causes ++ [6] ∧ AfterWarm s t) ∧
  (∀ s : State, (mbTurn s 0 0x20 = true → Finishes (.keyGen 0) s s 0 1 0) ∧ (mbTurn s 0 0x24 = true → Finishes (.healthDrop 0) s s 0 1 0) ∧
    (mbTurn s 0 0x28 = true → Finishes (.reset 0) s s 0 1 0)) ∧
  (∀ (ch : Fin 2) (s : State), mbTurn s ch (mbCmd s ch) = true → knownCmd ch (mbCmd s ch) = false → Finishes (.badcmd ch) s s ch 1 0) ∧
  (∀ s : State, 65536 ≤ s.wicket.draws → exec .drbgReseed s = .next (s.onWicket (fun w => { w with draws := 0 })).wicketWorks) ∧
  (∀ s : State, s.wicket.running = true →
    exec .entropyTestFail s = .next (s.onWicket (fun w => { w with entropyBad := true })).wicketWorks)

/-! ## The interrupt router (chapter 16) -/

/-- An event that may happen makes an ordinary source pending with the youngest age, once; the router sends each slot the source that no other ready one
comes before, by PRIO, age and number; a displaced source returns; a timer whose deadline is reached becomes pending; the stages of the
normal watchdog set STAGE1 and STAGE2 and raise sources 6 and 7 (R451, R453, R460, R462).
Rests on choices of the model: log 54, log 68. -/
def Obligations.RouterCommandsComplete : Prop :=
  (∀ (n : BitVec 12) (s : State), s.stalled = false → s.frozen = false → s.irt.late = [] →
    let old := s.reg .irtSrc 0 n.toNat 0
    let never := (8 ≤ n.toNat ∧ n.toNat ≤ 15) ∨ (92 ≤ n.toNat ∧ n.toNat ≤ 95) ∨ (144 ≤ n.toNat ∧ n.toNat ≤ 255)
    (mayRaise s n.toNat = false ∨ never ∨ bitAt old 1 = true → exec (.sourceEvent n) s = .next s) ∧
    (mayRaise s n.toNat = true → ¬ never → bitAt old 1 = false → bitAt old 4 = false → ∃ t, exec (.sourceEvent n) s = .next t ∧
      t.reg .irtSrc 0 n.toNat 0 = setBit old 1 true ∧ look t.irt.age n.toNat = some s.irt.next ∧ t.irt.next = s.irt.next + 1 ∧
      (∀ m, m ≠ n.toNat → t.reg .irtSrc 0 m 0 = s.reg .irtSrc 0 m 0 ∧ look t.irt.age m = look s.irt.age m) ∧
      t.mem = s.mem ∧ t.cores = s.cores)) ∧
  (∀ (c : CoreId) (slot : Fin 3) (s : State), s.stalled = false → s.frozen = false → s.irt.late = [] → s.irt.lateRes = [] → routerRuns s = true →
    (∃ t, exec (.presentSource c slot) s = .next t ∧ look t.irt.shown (3 * c + slot) = choice s c slot ∧ t.mem = s.mem ∧
      t.cores = s.cores ∧ t.regs = s.regs) ∧
    (∀ n, choice s c slot = some n → fitsSlot s c slot n = true ∧
      ∀ m, (look s.irt.age m).isSome = true → fitsSlot s c slot m = true → better s m n = false) ∧
    (choice s c slot = none → ∀ m, (look s.irt.age m).isSome = true → fitsSlot s c slot m = false)) ∧
  (∀ (c : CoreId) (slot : Fin 3) (s : State) (n : Nat), s.frozen = false → look s.irt.shown (3 * c + slot) = some n →
    (choice s c slot = some n → exec (.displacedSource c slot) s = .next s) ∧
    (choice s c slot ≠ some n → ∃ t, exec (.displacedSource c slot) s = .next t ∧ look t.irt.shown (3 * c + slot) = none ∧
      t.regs = s.regs ∧ t.irt.age = s.irt.age ∧ t.mem = s.mem)) ∧
  (∀ (c : CoreId) (n : Fin 3) (s : State), s.frozen = false → timerHit s c n = true →
    (look (s.core c).lage n = none → ∃ t, exec (.timerReached c n) s = .next t ∧
      look (t.core c).lage n = some s.irt.next ∧ (t.core c).g = (s.core c).g ∧ t.mem = s.mem ∧ t.regs = s.regs) ∧
    (look (s.core c).lage n ≠ none → exec (.timerReached c n) s = .next s)) ∧
  (∀ s : State, nwdCounts s 0 = true → s.stalled = false → s.frozen = false → s.irt.late = [] → bitAt (s.reg .irtSrc 0 6 0) 4 = false →
    let v := s.reg .irtNwdctl 0 0 0
    ∃ t, exec .nwdStage1 s = .next t ∧ t.reg .irtNwdctl 0 0 0 = setFld (setBit v 2 true) 32 16 (fld v 16 16) ∧ t.irt.nwdStage = 1 ∧
      bitAt (t.reg .irtSrc 0 6 0) 1 = true ∧ t.mem = s.mem ∧ t.cores = s.cores) ∧
  (∀ s : State, nwdCounts s 1 = true → s.stalled = false → s.frozen = false → s.irt.late = [] → bitAt (s.reg .irtSrc 0 7 0) 4 = false →
    let v := s.reg .irtNwdctl 0 0 0
    ∃ t, exec .nwdStage2 s = .next t ∧ t.reg .irtNwdctl 0 0 0 = setFld (setBit v 3 true) 32 16 0 ∧ t.irt.nwdStage = 2 ∧
      bitAt (t.reg .irtSrc 0 7 0) 1 = true ∧ t.mem = s.mem ∧ t.cores = s.cores)

/-! ## Louvre, the secure watchdog, thermal holds (chapters 01, 11 and 14) -/

/-- What a change of a core's grant leaves: memory, every register PREQ and the cores of other dies as they were, the core's general
registers too, and a core that does not sleep moving to its target (R408, R410). -/
def GrantMoved (s t : State) (c : Nat) : Prop :=
  t.mem = s.mem ∧ t.dirs = s.dirs ∧ (t.core c).g = (s.core c).g ∧ (∀ d, dieOf d ≠ dieOf c → t.core d = s.core d) ∧
  (∀ k, t.reg .lvPreq 0 k 0 = s.reg .lvPreq 0 k 0) ∧
  (follows (s.core c) = true → s.power.clocks = true → (t.core c).goal = levelTarget t c)

/-- Grants, stale grants, owner caps, energy, the start of cores, the end of a tile reset, half-time of the secure watchdog and thermal
holds, each with what it writes (R46, R342, R409, R413-R416, R475, R476, R480).
Rests on choices of the model: log 2, log 26, log 51, log 107. -/
def Obligations.LouvreCommandsComplete : Prop :=
  (∀ (c : CoreId) (level wide : BitVec 4) (s : State), louvreOn s = true →
    let old := (s.core c).crBase 9
    ∃ t, exec (.grantWrite c level wide) s = .next t ∧ GrantMoved s t c ∧
      (let v := (t.core c).crBase 9
       fld v 0 4 = min 12 level.toNat ∧ fld v 4 4 = min 12 wide.toNat ∧ bitAt v 14 = false ∧
       (bitAt v 13 = true ↔ 12 < level.toNat ∨ 12 < wide.toNat) ∧ fld v 16 16 = (fld old 16 16 + 1) % 2 ^ 16)) ∧
  (∀ (c : CoreId) (s : State), (s.core c).started = true → bitAt ((s.core c).crBase 9) 14 = false → s.power.errFatal = false →
    ∃ t, exec (.grantStale c) s = .next t ∧ GrantMoved s t c ∧
      fld ((t.core c).crBase 9) 0 4 = 6 ∧ fld ((t.core c).crBase 9) 4 4 = 6 ∧ bitAt ((t.core c).crBase 9) 14 = true) ∧
  (∀ (o : Owner) (level : BitVec 4) (power : Nat) (s : State), louvreOn s = true → o ≠ 4095 →
    let cap := s.regF .lvOcap 0 o.toNat 0 0 12
    ∃ t, exec (.ownerCapWindow o level power) s = .next t ∧ t.mem = s.mem ∧
      (let v := t.reg .lvOcap 0 o.toNat 0
       fld v 0 12 = cap ∧ fld v 12 4 = (if cap = 0 then 0 else min 12 level.toNat) ∧ (bitAt v 16 = true ↔ cap ≠ 0 ∧ cap < power)) ∧
      (∀ m, m < 4095 → m ≠ o.toNat → t.reg .lvOcap 0 m 0 = s.reg .lvOcap 0 m 0)) ∧
  (∀ (other : Nat) (s : State), louvreOn s = true →
    let sum (l : List Nat) : Nat := (l.map (railEnergy s)).sum
    let uncore := sum [4, 5, 6, 7, 8]
    ∃ t, exec (.energyTick other) s = .next t ∧ t.mem = s.mem ∧
      t.reg .lvPkgenergy 0 0 0 = s.reg .lvPkgenergy 0 0 0 + BitVec.ofNat 64
        ((lookD 0 s.power.energyRem 4097 + (sum [0, 1, 2, 3] + uncore + other) * 65536) / 524288) ∧
      t.reg .lvUncenergy 0 0 0 = s.reg .lvUncenergy 0 0 0 + BitVec.ofNat 64 ((lookD 0 s.power.energyRem 4096 + uncore * 65536) / 524288)) ∧
  (∀ (c : CoreId) (s : State), startBit s c = true → (s.core c).started = false → tileInReset s ≠ some (c.val / 2) →
    s.power.clocks = true →
    ∃ t, exec (.coreStart c) s = .next t ∧ t.mem = s.mem ∧ startBit t c = true ∧ (∀ d, dieOf d ≠ dieOf c → t.core d = s.core d) ∧
      (t.core c).goal = levelTarget t c ∧ (t.core c).started = true ∧ (t.core c).pc = Core.reset.pc ∧
      (t.core c).cr = Core.reset.cr ∧ (∀ r, (t.core c).gr r = 0) ∧ (∀ r, (t.core c).vr r = 0)) ∧
  (∀ (s : State) (t : Nat), tileInReset s = some t → t < 96 → s.power.clocks = true →
    let u := tileResetCore (tileResetCore s (2 * t)) (2 * t + 1)
    u.stalled = false → ∃ w, exec .tilerstDone s = .next w ∧ tileInReset w = none ∧ w.mem = u.mem ∧ (w.core (2 * t + 1)).started = false ∧
      (w.core (2 * t + 1)).g = [] ∧ (w.core (2 * t + 1)).l2 = [] ∧ startBit w (2 * t + 1) = false) ∧
  (∀ s : State, swdCounts s = true → s.stalled = false → s.frozen = false → s.power.pkg = .running → s.power.entering = none → s.irt.late = [] →
    bitAt (s.reg .irtSrc 0 0 0) 4 = false →
    let v := s.reg .ownSwdctl 0 0 0
    fld v 16 16 / 2 < fld v 32 16 →
    ∃ t, exec .swdHalf s = .next t ∧ t.reg .ownSwdctl 0 0 0 = setBit (setFld v 32 16 (fld v 16 16 / 2)) 1 true ∧
      bitAt (t.reg .irtSrc 0 0 0) 1 = true ∧ t.mem = s.mem ∧ t.cores = s.cores) ∧
  (∀ (n : Fin 96) (s : State), s.power.pwrgood = true → ∃ t, exec (.thermalHold (.tile n)) s = .next t ∧
    t.power.dieHold = setBit s.power.dieHold (dieOf (2 * n)) true ∧ t.mem = s.mem ∧ t.dirs = s.dirs ∧ (∀ c, (t.core c).g = (s.core c).g) ∧
    ∀ c, (look s.cores c).isSome = true → dieOf c = dieOf (2 * n) → follows (s.core c) = true → s.power.clocks = true → (t.core c).goal = 15) ∧
  (∀ (d : Fin 4) (s : State), ∃ t, exec (.thermalRelease (.die d)) s = .next t ∧
    t.power.dieHold = setBit s.power.dieHold d false ∧ t.mem = s.mem ∧ t.dirs = s.dirs ∧ ∀ c, (t.core c).g = (s.core c).g)

/-! ## Root complexes (chapter 15) -/

/-- Inbound requests at a link that is up: messages INTx and translation requests, oversized and damaged ones, prefixes, halted streams and
requests that pass their checks, which access memory line by line. A doorbell takes the same way, and raises its source or is counted. A
CXL line request reads or writes its line, or times out (R248, R430, R438-R442, R450, R456).
Rests on choices of the model: log 17, log 79, log 103, log 127. -/
def Obligations.InboundRequestsComplete : Prop :=
  (∀ (r : Inbound) (s : State), linkUp s r.rc r.port = false → s.stalled = false → exec (.inboundRequest r) s = .next s) ∧
  (∀ (r : Inbound) (s : State), s.rootClock = true → linkUp s r.rc r.port = true → s.stalled = false →
    let big : Prop := if r.write then 512 < r.data.length else 4096 < r.len
    let malformed := raiseAer s r.rc r.port aerMalformed
    (r.kind = .intx → exec (.inboundRequest r) s = .next s) ∧
    (r.kind = .translation → exec (.inboundRequest r) s = .next (reply s { r with write := false } .unsupported)) ∧
    (r.kind = .memory → big → malformed.stalled = false → exec (.inboundRequest r) s = .next malformed) ∧
    (r.kind = .memory → ¬ big → ideCheck s r = (s, true) →
      let v := if r.write then (List.range 4).foldl (fun z n =>
        checkUnit z r.rc n r.sid.toNat r.addr.toNat r.data r.enable r.poisoned) s else s
      let damaged := raiseAer v r.rc r.port aerEcrc
      (r.ecrcBad = true → damaged.stalled = false → exec (.inboundRequest r) s = .next damaged) ∧
      (r.ecrcBad = false → r.pasid = true → exec (.inboundRequest r) s = .next (reply v r .unsupported)) ∧
      (r.ecrcBad = false → r.pasid = false → r.addr.toNat / 4096 ≠ doorbellPage v →
        ((v.rc r.rc).halted.contains r.sid.toNat = true → ∃ t, exec (.inboundRequest r) s = .next t ∧ t.mem = s.mem ∧
          t.regF .rcShalt r.rc 0 0 32 16 = min (v.regF .rcShalt r.rc 0 0 32 16 + 1) 65535 ∧
          (r.write = false → (t.rc r.rc).sent.map (fun x => (x.sid, x.reply)) = some (r.sid.toNat, .unsupported))) ∧
        ((v.rc r.rc).halted.contains r.sid.toNat = false → ∀ w z sec o pa, streamOwner v r.rc r.sid.toNat = (w, some (sec, o)) →
          ioTranslate w (.rc r.rc) r.sid.toNat sec o r.addr r.write = (z, .ok pa) →
          (r.write = false → (inboundRead r sec o pa [] (linesOf pa r.len) z).stalled = false →
            exec (.inboundRequest r) s = .next (inboundRead r sec o pa [] (linesOf pa r.len) z)) ∧
          (r.write = true → (inboundWrite z r pa sec o).stalled = false →
            exec (.inboundRequest r) s = .next (inboundWrite z r pa sec o)))))) ∧
  (∀ (k : Fin 8) (p : Fin 4) (sid : W16) (data : W32) (s : State), s.rootClock = true → linkUp s k p = true → s.stalled = false →
    let r := doorbellTlp s k p sid data none true
    ideCheck s r = (s, true) →
    let v := (List.range 4).foldl (fun z n => checkUnit z k n sid.toNat r.addr.toNat r.data r.enable false) s
    let n := fld data 0 12
    let x := srcOf v n
    let good := fld data 12 20 = 0 ∧ 256 ≤ n ∧ bitAt x 3 = false ∧ (bitAt x 5 = true → fld x 24 3 = k.val ∧ fld x 32 16 = sid.toNat)
    ((s.rc k).halted.contains sid.toNat = false →
      (good → (raiseEvent v n).stalled = false → exec (.doorbell k p sid data none true) s = .next (raiseEvent v n)) ∧
      (¬ good → ∃ t, exec (.doorbell k p sid data none true) s = .next t ∧ t.mem = s.mem ∧ t.irt = s.irt ∧
        t.regF .irtDbrej 0 0 0 0 16 = min (s.regF .irtDbrej 0 0 0 0 16 + 1) 65535)) ∧
    ((s.rc k).halted.contains sid.toNat = true → ∃ t, exec (.doorbell k p sid data none true) s = .next t ∧ t.mem = s.mem ∧ t.irt = s.irt ∧
      t.regF .rcShalt k 0 0 32 16 = min (s.regF .rcShalt k 0 0 32 16 + 1) 65535)) ∧
  (∀ (k : Fin 4) (line : BitVec 46) (o : Owner) (s u w : State) (ko p : Nat) (e : W16) (x : W512 × BitVec 8), s.rootClock = true →
    cxlRc s (64 * line.toNat) = some k.val → hdmPort u k (64 * line.toNat) = some p →
    (targetCheck s line.toNat false o.toNat false = (u, .ok (ko, e)) →
      (cxlReadAt false u k line.toNat ko = (w, x) → w.stalled = false → exec (.cxlMemRequest k line .read o false false) s = .next w) ∧
      ((raiseAer u k p aerTimeout).stalled = false → exec (.cxlMemRequest k line .read o true false) s = .next (raiseAer u k p aerTimeout))) ∧
    (tableLocked s = false → s.stalled = false → u = s →
      exec (.cxlMemRequest k line .read o false false) s = .next (cxlReadAt false s k line.toNat o.toNat).1) ∧
    (∀ d en q, targetCheck s line.toNat false o.toNat true = (u, .ok (ko, e)) → cxlReadAt false u k line.toNat ko = (w, x) →
      let z := cxlWriteAt false w k line.toNat ko (mergeBytes x.1 d en.toNat) (if en = BitVec.allOnes 64 then q else x.2 ||| q)
      z.stalled = false → exec (.cxlMemRequest k line (.write d en q) o false false) s = .next z))

/-- Links, slots and invalidations of a port: PME_MESSAGE, LINK_UP, DOWNEVT, PME_TO_ACK and its timeout, HOTPLUG_POLL, PERST_RELEASE, the
ends of IOINV and SOWNINV, KEYRDY and the link states of ASPM, each with the bits of PORTSTAT or of its register (R428, R430, R434,
R435, R443, R445, R447, R449).
Rests on choices of the model: log 75, log 80. -/
def Obligations.PortEventsComplete : Prop :=
  (∀ (k : Fin 8) (p : Fin 4) (s : State), linkUp s k p = true → s.stalled = false → s.frozen = false →
    ((s.port k p).pme = true → ∃ t, exec (.pmeMessage k p) s = .next t ∧ (t.port k p).pme = true ∧ t.regs = s.regs ∧ t.mem = s.mem) ∧
    ((s.port k p).pme = false → s.irt.late = [] → bitAt (s.reg .irtSrc 0 (48 + 4 * k + p) 0) 4 = false →
      ∃ t, exec (.pmeMessage k p) s = .next t ∧ (t.port k p).pme = true ∧ bitAt (t.reg .irtSrc 0 (48 + 4 * k + p) 0) 1 = true ∧
        t.mem = s.mem)) ∧
  (∀ (k : Fin 8) (p : Fin 4) (width : BitVec 5) (speed : BitVec 3) (s : State), portTrains s k p = true → width ≠ 0 → speed ≠ 0 →
    ∃ t, exec (.linkUp k p width speed false) s = .next t ∧ t.mem = s.mem ∧ linkState t k p = 2 ∧
      t.regF .rcPortstat k p 0 3 5 = linkWidth (portLanes (s.regF .rcCfg k 0 0 0 3) p) width.toNat ∧ t.regF .rcPortstat k p 0 8 3 = min speed.toNat (s.regF .rcPortctl k p 0 8 3)) ∧
  (∀ (k : Fin 8) (p : Fin 4) (s : State), s.frozen = false → linkState s k p = 2 ∨ linkState s k p = 3 ∨ linkState s k p = 4 → (s.port k p).turnOff = false →
    (s.rc k).out.any (fun x => x.port == p) = false →
    ∃ t, exec (.downevt k p) s = .next t ∧ t.mem = s.mem ∧ linkState t k p = 0 ∧ bitAt (t.reg .rcPortstat k p 0) 14 = true ∧
      bitAt (t.reg .rcPortstat k p 0) 15 = true ∧ t.cores = s.cores) ∧
  (∀ (k : Fin 8) (p : Fin 4) (s : State), s.frozen = false → (s.port k p).turnOff = true →
    (∃ t, exec (.pmeToAck k p) s = .next t ∧ bitAt (t.reg .rcPortstat k p 0) 13 = true ∧ t.mem = s.mem ∧
      linkState t k p = if linkState s k p = 2 ∨ linkState s k p = 3 then 4 else linkState s k p) ∧
    (∃ t, exec (.pmetoTimeout k p) s = .next t ∧ bitAt (t.reg .rcPortstat k p 0) 13 = true ∧ t.mem = s.mem ∧
      linkState t k p = linkState s k p)) ∧
  (∀ (k : Fin 8) (p : Fin 4) (s : State), bitAt (s.reg .rcPortctl k p 0) 7 = true → portExists s k p = true → s.rootClock = true →
    s.stalled = false → s.irt.late = [] → bitAt (s.reg .irtSrc 0 (16 + 4 * k + p) 0) 4 = false →
    let x := s.port k p
    let polled (t : State) (now : BitVec 4) : Prop :=
      t.mem = s.mem ∧ (t.port k p).inputs = now ∧ (t.port k p).slot = x.slot ||| slotChanges x.inputs now ∧
      bitAt (t.reg .rcPortstat k p 0) 12 = !bitAt now 0 ∧
      (slotChanges x.inputs now &&& ~~~x.slot ≠ 0 → bitAt (t.reg .irtSrc 0 (16 + 4 * k + p) 0) 1 = true)
    (∀ v : BitVec 8, ∃ t, exec (.hotplugPoll k p (some v)) s = .next t ∧ polled t (v.setWidth 4) ∧ (t.port k p).misses = 0) ∧
    (2 ≤ x.misses → ∃ t, exec (.hotplugPoll k p none) s = .next t ∧ polled t 0xF ∧ (t.port k p).misses = 3 ∧
      bitAt (t.reg .rcPortctl k p 0) 2 = false ∧ bitAt (t.port k p).expander.output 4 = false) ∧
    (x.misses < 2 → ∃ t, exec (.hotplugPoll k p none) s = .next t ∧ (t.port k p).misses = x.misses + 1 ∧
      t.regs = s.regs ∧ t.mem = s.mem)) ∧
  (∀ was now : BitVec 4, bitAt (slotChanges was now) 3 = (bitAt was 0 != bitAt now 0) ∧ bitAt (slotChanges was now) 2 = (bitAt was 3 != bitAt now 3) ∧
    bitAt (slotChanges was now) 0 = (bitAt was 1 && !bitAt now 1) ∧ bitAt (slotChanges was now) 1 = (bitAt was 2 && !bitAt now 2)) ∧
  (∀ (k : Fin 8) (p : Fin 4) (s : State), s.frozen = false → (s.port k p).perstDue = true → bitAt (s.reg .rcPortctl k p 0) 0 = false →
    ∃ t, exec (.perstRelease k p) s = .next t ∧ (t.port k p).low = false ∧ (t.port k p).perstDue = false ∧ t.regs = s.regs ∧ t.mem = s.mem) ∧
  (∀ (k : Fin 8) (o : Fin 4) (s : State), s.frozen = false →
    (∃ t, exec (.ioinvDone (.rc k)) s = .next t ∧ bitAt (t.reg .rcIoinv k 0 0) 17 = false ∧ t.iommus = s.iommus ∧ t.mem = s.mem) ∧
    (∃ t, exec (.ioinvDone (.oec o)) s = .next t ∧ bitAt (t.reg .oecIoinv o 0 0) 17 = false ∧ t.iommus = s.iommus ∧ t.mem = s.mem) ∧
    (∃ t, exec (.sowninvDone k) s = .next t ∧ bitAt (t.reg .rcSowninv k 0 0) 17 = false ∧ t.mem = s.mem)) ∧
  (∀ (k i : Fin 8) (s : State), s.frozen = false → (s.rc k).keyReq.contains i.val = true → ∃ t, exec (.keyrdy k i) s = .next t ∧
    bitAt (t.reg .rcIdectl k i 0) 13 = true ∧ (t.rc k).keyReq = (s.rc k).keyReq.filter (· != i.val) ∧
    (lookD [] (t.rc k).keys i).length = 8 ∧ t.mem = s.mem) ∧
  (∀ (k : Fin 8) (p : Fin 4) (n : BitVec 3) (s : State), s.frozen = false →
    ((linkState s k p = 2 ∨ linkState s k p = 3) ∧ (n = 2 ∨ n = 3)) ∨ (linkState s k p = 4 ∧ n = 5) →
    ∃ t, exec (.aspmTransition k p n) s = .next t ∧ linkState t k p = n.toNat ∧ t.mem = s.mem ∧ t.cores = s.cores)

/-! ## The whole machine -/

/-- After reset nothing is listed, no command waits, every general register of every core reads zero, and the reset vector, the privilege
level and the world are those of R476.
Rests on choices of the model: log 2. -/
def Obligations.ResetState : Prop :=
  State.reset.pending = [] ∧ State.reset.ok = true ∧ State.reset.power.clocks = false ∧
  (∀ c : CoreId, (State.reset.core c).pc = 0xE000000000000 ∧ (State.reset.core c).pl = 3 ∧ (State.reset.core c).secure = true ∧
    (State.reset.core c).ie = false ∧ (State.reset.core c).started = false ∧ ∀ r, (State.reset.core c).gr r = 0) ∧
  (∀ (i : RegId) (n k j : Nat), State.reset.reg i n k j = (defOf i).elim 0 RegDef.resetValue)

/-- Memory stays in its canonical form, addresses rising and no byte listed that reads as an unlisted one does, at every step from every
state.
Rests on choices of the model: log 81. -/
def Obligations.MemoryStaysCanonical : Prop :=
  ∀ s t : State, Memory.wf s.mem = true → step s = .next t → Memory.wf t.mem = true

/-- No step puts a command into the queue or takes one but the oldest; none changes the device secret, the serial number, the vendor
keys or the debug fuses; no revocation and no floor is ever lowered, and an owner key once blown stays (R347).
Rests on choices of the model: log 37. -/
def Obligations.QueueAndFusesKept : Prop :=
  ∀ s t : State, step s = .next t →
    t.pending = s.pending.tail ∧
    t.wicket.fuses.secret = s.wicket.fuses.secret ∧ t.wicket.fuses.serial = s.wicket.fuses.serial ∧
    t.wicket.fuses.vkeys = s.wicket.fuses.vkeys ∧ t.wicket.fuses.dbg = s.wicket.fuses.dbg ∧
    (s.wicket.fuses.okey ≠ 0 → t.wicket.fuses.okey = s.wicket.fuses.okey) ∧
    (∀ n, bitAt s.wicket.fuses.vrevoke n = true → bitAt t.wicket.fuses.vrevoke n = true) ∧
    (∀ n, floorOf s.wicket.fuses n ≤ floorOf t.wicket.fuses n)
end

