-- ==== Sys2Proof/Laws/Memory.lean ====
section
/-! SUPPORT. Laws of finite tables and of memory: a read after a write, and the canonical form that every memory operation keeps. -/

namespace Sys2Proof.Machine

/-! ## Tables -/

theorem look_put_same {α : Type} (t : Tab α) (k : Nat) (v : α) : look (put t k v) k = some v := by
  induction t with
  | nil => simp [put, look]
  | cons p t ih =>
    obtain ⟨j, w⟩ := p
    simp only [put]
    split
    · simp [look]
    · split
      · simp [look]
      · rename_i h; simp [look, h, ih]

theorem look_put_other {α : Type} (t : Tab α) (k q : Nat) (v : α) (h : q ≠ k) : look (put t k v) q = look t q := by
  induction t with
  | nil => simp [put, look, h]
  | cons p t ih =>
    obtain ⟨j, w⟩ := p
    simp only [put]
    split
    · simp [look, h]
    · split
      · rename_i hk; subst hk; simp [look, h]
      · simp [look, ih]

theorem look_del_same {α : Type} (t : Tab α) (k : Nat) : look (del t k) k = none := by
  induction t with
  | nil => rfl
  | cons p t ih =>
    obtain ⟨j, w⟩ := p
    by_cases h : j = k
    · simpa [del, h] using ih
    · have h' : k ≠ j := fun e => h e.symm
      simpa [del, h, look, h'] using ih

theorem look_del_other {α : Type} (t : Tab α) (k q : Nat) (h : q ≠ k) : look (del t k) q = look t q := by
  induction t with
  | nil => rfl
  | cons p t ih =>
    obtain ⟨j, w⟩ := p
    by_cases e : j = k
    · subst e; simpa [del, look, h] using ih
    · by_cases e' : q = j
      · subst e'; simp [del, look, e]
      · have : (j != k) = true := by simp [e]
        simpa [del, this, look, e'] using ih

theorem lookD_put {α : Type} (d : α) (t : Tab α) (k q : Nat) (v : α) :
    lookD d (put t k v) q = if q = k then v else lookD d t q := by
  unfold lookD
  split
  · rename_i h; subst h; simp [look_put_same]
  · rename_i h; simp [look_put_other _ _ _ _ h]

theorem lookD_store {α : Type} [DecidableEq α] (d : α) (t : Tab α) (k q : Nat) (v : α) :
    lookD d (store d t k v) q = if q = k then v else lookD d t q := by
  unfold store
  split
  · rename_i h
    unfold lookD
    split
    · rename_i e; subst e; simp [look_del_same, h]
    · rename_i e; simp [look_del_other _ _ _ e]
  · exact lookD_put d t k q v

/-! ## Registers of a core -/

/-- g0 reads as zero; a written register reads as written, the others as before (R48). -/
theorem gr_wg (k : Core) (r q : RegNo) (v : W64) : (k.wg r v).gr q = if q = 0 then 0 else if q = r then v else k.gr q := by
  unfold Core.wg Core.gr
  by_cases hq : q = 0
  · simp [hq]
  · by_cases hr : r = 0
    · subst hr
      have hq' : ¬ q = 0#5 := hq
      simp [hq']
    · simp only [hq, hr, if_false, lookD_store]
      by_cases e : q = r
      · simp [e]
      · have : q.toNat ≠ r.toNat := fun h => e (BitVec.eq_of_toNat_eq h)
        simp [e, this]

theorem wg_zero (k : Core) (v : W64) : k.wg 0 v = k := by simp [Core.wg]

/-- A written vector register reads as written, the others as before. -/
theorem vr_wv (k : Core) (r q : Nat) (x : W512) : (k.wv r x).vr q = if q % 32 = r % 32 then x else k.vr q := by
  unfold Core.wv Core.vr
  exact lookD_store 0 k.v (r % 32) (q % 32) x

theorem mr_wm (k : Core) (r q : BitVec 3) (x : W512) : (k.wm r x).mr q = if q = r then x else k.mr q := by
  unfold Core.wm Core.mr
  rw [lookD_store]
  by_cases e : q = r
  · simp [e]
  · have : q.toNat ≠ r.toNat := fun h => e (BitVec.eq_of_toNat_eq h)
    simp [e, this]

/-- A control register written at once reads as written. -/
theorem crBase_crPut (k : Core) (n m : Nat) (v : W64) : (k.crPut n v).crBase m = if m = n then v else k.crBase m := by
  unfold Core.crPut Core.crBase
  rw [lookD_put]

/-! ## Cores and registers of the part -/

theorem core_setCore (s : State) (c d : Nat) (k : Core) : (s.setCore c k).core d = if d = c then k else s.core d := by
  unfold State.setCore State.core
  exact lookD_put Core.reset s.cores c d k

theorem core_onCore (s : State) (c d : Nat) (f : Core → Core) :
    (s.onCore c f).core d = if d = c then f (s.core c) else s.core d := by
  unfold State.onCore
  exact core_setCore s c d (f (s.core c))

/-- A register of the part written by hardware reads as written; one at another address as before. -/
theorem reg_setReg_same (s : State) (i : RegId) (n k j : Nat) (v : W64) : (s.setReg i n k j v).reg i n k j = v := by
  simp [State.setReg, State.reg, look_put_same]

theorem reg_setReg_other (s : State) (i i' : RegId) (n k j n' k' j' : Nat) (v : W64)
    (h : regAddr i' n' k' j' ≠ regAddr i n k j) : (s.setReg i n k j v).reg i' n' k' j' = s.reg i' n' k' j' := by
  simp [State.setReg, State.reg, look_put_other _ _ _ _ h]

/-! ## Memory -/

theorem wf_iff (m : List Host.Cell) :
    Memory.wf m = true ↔ m.Pairwise (fun a b => a.1 < b.1) ∧ ∀ p ∈ m, p.2 ≠ 0 := by
  match m with
  | [] => simp [Memory.wf]
  | [(a, b)] => simp [Memory.wf]
  | (a, b) :: (a', b') :: t =>
    have ih := wf_iff ((a', b') :: t)
    simp only [Memory.wf, Bool.and_eq_true, decide_eq_true_eq, bne_iff_ne, ih, List.pairwise_cons, List.mem_cons, forall_eq_or_imp]
    constructor
    · rintro ⟨⟨h1, h2⟩, ⟨h3, h4⟩, h5, h6⟩
      exact ⟨⟨⟨h1, fun x hx => lt_trans h1 (h3 x hx)⟩, h3, h4⟩, h2, h5, h6⟩
    · rintro ⟨⟨⟨h1, -⟩, h3, h4⟩, h2, h5, h6⟩
      exact ⟨⟨h1, h2⟩, ⟨h3, h4⟩, h5, h6⟩

theorem wf_filter (m : List Host.Cell) (f : Host.Cell → Bool) (h : Memory.wf m = true) : Memory.wf (m.filter f) = true := by
  rw [wf_iff] at *
  exact ⟨h.1.filter f, fun p hp => h.2 p (List.mem_filter.mp hp).1⟩

theorem mem_put {α : Type} (t : Tab α) (k : Nat) (v : α) (p : Nat × α) (h : p ∈ put t k v) : p = (k, v) ∨ p ∈ t := by
  induction t with
  | nil => exact .inl (by simpa [put] using h)
  | cons q t ih =>
    obtain ⟨j, w⟩ := q
    simp only [put] at h
    split at h
    · rcases List.mem_cons.mp h with h | h
      · exact .inl h
      · exact .inr h
    · split at h
      · rcases List.mem_cons.mp h with h | h
        · exact .inl h
        · exact .inr (List.mem_cons_of_mem _ h)
      · rcases List.mem_cons.mp h with h | h
        · exact .inr (by simp [h])
        · exact (ih h).imp id (List.mem_cons_of_mem _)

theorem pairwise_put {α : Type} (t : Tab α) (k : Nat) (v : α) (h : t.Pairwise (fun a b => a.1 < b.1)) :
    (put t k v).Pairwise (fun a b => a.1 < b.1) := by
  induction t with
  | nil => simp [put]
  | cons q t ih =>
    obtain ⟨j, w⟩ := q
    obtain ⟨h1, h2⟩ := List.pairwise_cons.mp h
    simp only [put]
    split
    · rename_i hk
      refine List.pairwise_cons.mpr ⟨fun x hx => ?_, h⟩
      rcases List.mem_cons.mp hx with rfl | hx
      · exact hk
      · exact lt_trans hk (h1 x hx)
    · split
      · rename_i hk
        subst hk
        exact List.pairwise_cons.mpr ⟨h1, h2⟩
      · rename_i n1 n2
        refine List.pairwise_cons.mpr ⟨fun x hx => ?_, ih h2⟩
        rcases mem_put t k v x hx with rfl | hx
        · show j < k
          omega
        · exact h1 x hx

/-- A byte written keeps the canonical form. -/
theorem wf_writeByte (m : List Host.Cell) (a : Nat) (b : Byte) (h : Memory.wf m = true) : Memory.wf (writeByte m a b) = true := by
  unfold writeByte store
  split
  · exact wf_filter m _ h
  · rename_i hb
    rw [wf_iff] at *
    refine ⟨pairwise_put m a b h.1, fun p hp => ?_⟩
    rcases mem_put m a b p hp with rfl | hp
    · exact hb
    · exact h.2 p hp

theorem wf_foldl {α : Type} (f : List Host.Cell → α → List Host.Cell)
    (hf : ∀ m x, Memory.wf m = true → Memory.wf (f m x) = true) (l : List α) (m : List Host.Cell) (h : Memory.wf m = true) :
    Memory.wf (l.foldl f m) = true := by
  induction l generalizing m with
  | nil => exact h
  | cons x l ih => exact ih _ (hf m x h)

/-- A line written keeps the canonical form. -/
theorem wf_writeStored (m : List Host.Cell) (l : Nat) (d : W512) (h : Memory.wf m = true) :
    Memory.wf (writeStored m l d) = true :=
  wf_foldl _ (fun m _ hm => wf_writeByte m _ _ hm) _ m h

/-- Bytes written in a row keep the canonical form. -/
theorem wf_writeBytes (l : List Byte) (m : List Host.Cell) (a : Nat) (h : Memory.wf m = true) :
    Memory.wf (writeBytes m a l) = true := by
  induction l generalizing m a with
  | nil => exact h
  | cons b l ih => exact ih _ _ (wf_writeByte m a b h)

/-- A byte written reads as written, and every other byte as before. -/
theorem readByte_writeByte (m : List Host.Cell) (a q : Nat) (b : Byte) :
    readByte (writeByte m a b) q = if q = a then b else readByte m q := lookD_store 0 m a q b

/-- Bytes written in a row read as written, and every other byte as before. -/
theorem readByte_writeBytes (l : List Byte) (m : List Host.Cell) (a q : Nat) :
    readByte (writeBytes m a l) q = if a ≤ q ∧ q < a + l.length then nthD 0 l (q - a) else readByte m q := by
  induction l generalizing m a with
  | nil => rw [if_neg (by simp only [List.length_nil]; omega)]; rfl
  | cons b l ih =>
    rw [writeBytes, ih, readByte_writeByte]
    simp only [List.length_cons]
    by_cases e : q = a
    · subst e
      rw [if_neg (by omega), if_pos rfl, if_pos (by omega), Nat.sub_self]; rfl
    · by_cases i : a + 1 ≤ q ∧ q < a + 1 + l.length
      · rw [if_pos i, if_pos (by omega), show q - a = (q - (a + 1)) + 1 by omega]; rfl
      · rw [if_neg i, if_neg e, if_neg (by omega)]

theorem readByte_foldl (d : W512) (l : Nat) (is : List Nat) (m : List Host.Cell) (q : Nat)
    (h : ∀ i ∈ is, q ≠ 64 * l + i) :
    readByte (is.foldl (fun m i => writeByte m (64 * l + i) (byteOf d i)) m) q = readByte m q := by
  induction is generalizing m with
  | nil => rfl
  | cons i is ih =>
    rw [List.foldl_cons, ih _ (fun j hj => h j (List.mem_cons_of_mem _ hj)), readByte_writeByte,
      if_neg (h i List.mem_cons_self)]

/-- A line written leaves every byte outside it. -/
theorem readByte_writeStored_other (m : List Host.Cell) (l q : Nat) (d : W512) (h : q / 64 ≠ l) :
    readByte (writeStored m l d) q = readByte m q := by
  refine readByte_foldl d l _ m q (fun i hi => ?_)
  have := List.mem_range.mp hi
  omega

/-- Memory after reset has the canonical form. -/
theorem reset_mem_wf : Memory.wf State.reset.mem = true := rfl

end Sys2Proof.Machine
end

