-- ==== Sys2Proof/Laws/State.lean ====
section
/-! SUPPORT. What each plain update of the state leaves as it was: one lemma per field and update, so that no proof unfolds a record. -/

namespace Sys2Proof.Machine


/-! ### State.setCore -/

@[simp] theorem State.setCore_pending (s : State) (c : Nat) (k : Core) : (s.setCore c k).pending = s.pending := rfl
@[simp] theorem State.setCore_free (s : State) (c : Nat) (k : Core) : (s.setCore c k).free = s.free := rfl
@[simp] theorem State.setCore_stalled (s : State) (c : Nat) (k : Core) : (s.setCore c k).stalled = s.stalled := rfl
@[simp] theorem State.setCore_qos (s : State) (c : Nat) (k : Core) : (s.setCore c k).qos = s.qos := rfl
@[simp] theorem State.setCore_regs (s : State) (c : Nat) (k : Core) : (s.setCore c k).regs = s.regs := rfl
@[simp] theorem State.setCore_mem (s : State) (c : Nat) (k : Core) : (s.setCore c k).mem = s.mem := rfl
@[simp] theorem State.setCore_notes (s : State) (c : Nat) (k : Core) : (s.setCore c k).notes = s.notes := rfl
@[simp] theorem State.setCore_llc (s : State) (c : Nat) (k : Core) : (s.setCore c k).llc = s.llc := rfl
@[simp] theorem State.setCore_dirs (s : State) (c : Nat) (k : Core) : (s.setCore c k).dirs = s.dirs := rfl
@[simp] theorem State.setCore_dirUse (s : State) (c : Nat) (k : Core) : (s.setCore c k).dirUse = s.dirUse := rfl
@[simp] theorem State.setCore_victims (s : State) (c : Nat) (k : Core) : (s.setCore c k).victims = s.victims := rfl
@[simp] theorem State.setCore_txns (s : State) (c : Nat) (k : Core) : (s.setCore c k).txns = s.txns := rfl
@[simp] theorem State.setCore_homeq (s : State) (c : Nat) (k : Core) : (s.setCore c k).homeq = s.homeq := rfl
@[simp] theorem State.setCore_fills (s : State) (c : Nat) (k : Core) : (s.setCore c k).fills = s.fills := rfl
@[simp] theorem State.setCore_ownc (s : State) (c : Nat) (k : Core) : (s.setCore c k).ownc = s.ownc := rfl
@[simp] theorem State.setCore_keys (s : State) (c : Nat) (k : Core) : (s.setCore c k).keys = s.keys := rfl
@[simp] theorem State.setCore_mcs (s : State) (c : Nat) (k : Core) : (s.setCore c k).mcs = s.mcs := rfl
@[simp] theorem State.setCore_vlts (s : State) (c : Nat) (k : Core) : (s.setCore c k).vlts = s.vlts := rfl
@[simp] theorem State.setCore_links (s : State) (c : Nat) (k : Core) : (s.setCore c k).links = s.links := rfl
@[simp] theorem State.setCore_rings (s : State) (c : Nat) (k : Core) : (s.setCore c k).rings = s.rings := rfl
@[simp] theorem State.setCore_heldReqs (s : State) (c : Nat) (k : Core) : (s.setCore c k).heldReqs = s.heldReqs := rfl
@[simp] theorem State.setCore_map (s : State) (c : Nat) (k : Core) : (s.setCore c k).map = s.map := rfl
@[simp] theorem State.setCore_power (s : State) (c : Nat) (k : Core) : (s.setCore c k).power = s.power := rfl
@[simp] theorem State.setCore_irt (s : State) (c : Nat) (k : Core) : (s.setCore c k).irt = s.irt := rfl
@[simp] theorem State.setCore_pm (s : State) (c : Nat) (k : Core) : (s.setCore c k).pm = s.pm := rfl
@[simp] theorem State.setCore_rcs (s : State) (c : Nat) (k : Core) : (s.setCore c k).rcs = s.rcs := rfl
@[simp] theorem State.setCore_iommus (s : State) (c : Nat) (k : Core) : (s.setCore c k).iommus = s.iommus := rfl
@[simp] theorem State.setCore_lanes (s : State) (c : Nat) (k : Core) : (s.setCore c k).lanes = s.lanes := rfl
@[simp] theorem State.setCore_vis (s : State) (c : Nat) (k : Core) : (s.setCore c k).vis = s.vis := rfl
@[simp] theorem State.setCore_wicket (s : State) (c : Nat) (k : Core) : (s.setCore c k).wicket = s.wicket := rfl

/-! ### State.onCore -/

@[simp] theorem State.onCore_pending (s : State) (c : Nat) (f : Core → Core) : (s.onCore c f).pending = s.pending := rfl
@[simp] theorem State.onCore_free (s : State) (c : Nat) (f : Core → Core) : (s.onCore c f).free = s.free := rfl
@[simp] theorem State.onCore_stalled (s : State) (c : Nat) (f : Core → Core) : (s.onCore c f).stalled = s.stalled := rfl
@[simp] theorem State.onCore_qos (s : State) (c : Nat) (f : Core → Core) : (s.onCore c f).qos = s.qos := rfl
@[simp] theorem State.onCore_regs (s : State) (c : Nat) (f : Core → Core) : (s.onCore c f).regs = s.regs := rfl
@[simp] theorem State.onCore_mem (s : State) (c : Nat) (f : Core → Core) : (s.onCore c f).mem = s.mem := rfl
@[simp] theorem State.onCore_notes (s : State) (c : Nat) (f : Core → Core) : (s.onCore c f).notes = s.notes := rfl
@[simp] theorem State.onCore_llc (s : State) (c : Nat) (f : Core → Core) : (s.onCore c f).llc = s.llc := rfl
@[simp] theorem State.onCore_dirs (s : State) (c : Nat) (f : Core → Core) : (s.onCore c f).dirs = s.dirs := rfl
@[simp] theorem State.onCore_dirUse (s : State) (c : Nat) (f : Core → Core) : (s.onCore c f).dirUse = s.dirUse := rfl
@[simp] theorem State.onCore_victims (s : State) (c : Nat) (f : Core → Core) : (s.onCore c f).victims = s.victims := rfl
@[simp] theorem State.onCore_txns (s : State) (c : Nat) (f : Core → Core) : (s.onCore c f).txns = s.txns := rfl
@[simp] theorem State.onCore_homeq (s : State) (c : Nat) (f : Core → Core) : (s.onCore c f).homeq = s.homeq := rfl
@[simp] theorem State.onCore_fills (s : State) (c : Nat) (f : Core → Core) : (s.onCore c f).fills = s.fills := rfl
@[simp] theorem State.onCore_ownc (s : State) (c : Nat) (f : Core → Core) : (s.onCore c f).ownc = s.ownc := rfl
@[simp] theorem State.onCore_keys (s : State) (c : Nat) (f : Core → Core) : (s.onCore c f).keys = s.keys := rfl
@[simp] theorem State.onCore_mcs (s : State) (c : Nat) (f : Core → Core) : (s.onCore c f).mcs = s.mcs := rfl
@[simp] theorem State.onCore_vlts (s : State) (c : Nat) (f : Core → Core) : (s.onCore c f).vlts = s.vlts := rfl
@[simp] theorem State.onCore_links (s : State) (c : Nat) (f : Core → Core) : (s.onCore c f).links = s.links := rfl
@[simp] theorem State.onCore_rings (s : State) (c : Nat) (f : Core → Core) : (s.onCore c f).rings = s.rings := rfl
@[simp] theorem State.onCore_heldReqs (s : State) (c : Nat) (f : Core → Core) : (s.onCore c f).heldReqs = s.heldReqs := rfl
@[simp] theorem State.onCore_map (s : State) (c : Nat) (f : Core → Core) : (s.onCore c f).map = s.map := rfl
@[simp] theorem State.onCore_power (s : State) (c : Nat) (f : Core → Core) : (s.onCore c f).power = s.power := rfl
@[simp] theorem State.onCore_irt (s : State) (c : Nat) (f : Core → Core) : (s.onCore c f).irt = s.irt := rfl
@[simp] theorem State.onCore_pm (s : State) (c : Nat) (f : Core → Core) : (s.onCore c f).pm = s.pm := rfl
@[simp] theorem State.onCore_rcs (s : State) (c : Nat) (f : Core → Core) : (s.onCore c f).rcs = s.rcs := rfl
@[simp] theorem State.onCore_iommus (s : State) (c : Nat) (f : Core → Core) : (s.onCore c f).iommus = s.iommus := rfl
@[simp] theorem State.onCore_lanes (s : State) (c : Nat) (f : Core → Core) : (s.onCore c f).lanes = s.lanes := rfl
@[simp] theorem State.onCore_vis (s : State) (c : Nat) (f : Core → Core) : (s.onCore c f).vis = s.vis := rfl
@[simp] theorem State.onCore_wicket (s : State) (c : Nat) (f : Core → Core) : (s.onCore c f).wicket = s.wicket := rfl

/-! ### State.setReg -/

@[simp] theorem State.setReg_pending (s : State) (i : RegId) (n k j : Nat) (v : W64) : (s.setReg i n k j v).pending = s.pending := rfl
@[simp] theorem State.setReg_free (s : State) (i : RegId) (n k j : Nat) (v : W64) : (s.setReg i n k j v).free = s.free := rfl
@[simp] theorem State.setReg_stalled (s : State) (i : RegId) (n k j : Nat) (v : W64) : (s.setReg i n k j v).stalled = s.stalled := rfl
@[simp] theorem State.setReg_qos (s : State) (i : RegId) (n k j : Nat) (v : W64) : (s.setReg i n k j v).qos = s.qos := rfl
@[simp] theorem State.setReg_cores (s : State) (i : RegId) (n k j : Nat) (v : W64) : (s.setReg i n k j v).cores = s.cores := rfl
@[simp] theorem State.setReg_mem (s : State) (i : RegId) (n k j : Nat) (v : W64) : (s.setReg i n k j v).mem = s.mem := rfl
@[simp] theorem State.setReg_notes (s : State) (i : RegId) (n k j : Nat) (v : W64) : (s.setReg i n k j v).notes = s.notes := rfl
@[simp] theorem State.setReg_llc (s : State) (i : RegId) (n k j : Nat) (v : W64) : (s.setReg i n k j v).llc = s.llc := rfl
@[simp] theorem State.setReg_dirs (s : State) (i : RegId) (n k j : Nat) (v : W64) : (s.setReg i n k j v).dirs = s.dirs := rfl
@[simp] theorem State.setReg_dirUse (s : State) (i : RegId) (n k j : Nat) (v : W64) : (s.setReg i n k j v).dirUse = s.dirUse := rfl
@[simp] theorem State.setReg_victims (s : State) (i : RegId) (n k j : Nat) (v : W64) : (s.setReg i n k j v).victims = s.victims := rfl
@[simp] theorem State.setReg_txns (s : State) (i : RegId) (n k j : Nat) (v : W64) : (s.setReg i n k j v).txns = s.txns := rfl
@[simp] theorem State.setReg_homeq (s : State) (i : RegId) (n k j : Nat) (v : W64) : (s.setReg i n k j v).homeq = s.homeq := rfl
@[simp] theorem State.setReg_fills (s : State) (i : RegId) (n k j : Nat) (v : W64) : (s.setReg i n k j v).fills = s.fills := rfl
@[simp] theorem State.setReg_ownc (s : State) (i : RegId) (n k j : Nat) (v : W64) : (s.setReg i n k j v).ownc = s.ownc := rfl
@[simp] theorem State.setReg_keys (s : State) (i : RegId) (n k j : Nat) (v : W64) : (s.setReg i n k j v).keys = s.keys := rfl
@[simp] theorem State.setReg_mcs (s : State) (i : RegId) (n k j : Nat) (v : W64) : (s.setReg i n k j v).mcs = s.mcs := rfl
@[simp] theorem State.setReg_vlts (s : State) (i : RegId) (n k j : Nat) (v : W64) : (s.setReg i n k j v).vlts = s.vlts := rfl
@[simp] theorem State.setReg_links (s : State) (i : RegId) (n k j : Nat) (v : W64) : (s.setReg i n k j v).links = s.links := rfl
@[simp] theorem State.setReg_rings (s : State) (i : RegId) (n k j : Nat) (v : W64) : (s.setReg i n k j v).rings = s.rings := rfl
@[simp] theorem State.setReg_heldReqs (s : State) (i : RegId) (n k j : Nat) (v : W64) : (s.setReg i n k j v).heldReqs = s.heldReqs := rfl
@[simp] theorem State.setReg_map (s : State) (i : RegId) (n k j : Nat) (v : W64) : (s.setReg i n k j v).map = s.map := rfl
@[simp] theorem State.setReg_power (s : State) (i : RegId) (n k j : Nat) (v : W64) : (s.setReg i n k j v).power = s.power := rfl
@[simp] theorem State.setReg_irt (s : State) (i : RegId) (n k j : Nat) (v : W64) : (s.setReg i n k j v).irt = s.irt := rfl
@[simp] theorem State.setReg_pm (s : State) (i : RegId) (n k j : Nat) (v : W64) : (s.setReg i n k j v).pm = s.pm := rfl
@[simp] theorem State.setReg_rcs (s : State) (i : RegId) (n k j : Nat) (v : W64) : (s.setReg i n k j v).rcs = s.rcs := rfl
@[simp] theorem State.setReg_iommus (s : State) (i : RegId) (n k j : Nat) (v : W64) : (s.setReg i n k j v).iommus = s.iommus := rfl
@[simp] theorem State.setReg_lanes (s : State) (i : RegId) (n k j : Nat) (v : W64) : (s.setReg i n k j v).lanes = s.lanes := rfl
@[simp] theorem State.setReg_vis (s : State) (i : RegId) (n k j : Nat) (v : W64) : (s.setReg i n k j v).vis = s.vis := rfl
@[simp] theorem State.setReg_wicket (s : State) (i : RegId) (n k j : Nat) (v : W64) : (s.setReg i n k j v).wicket = s.wicket := rfl

/-! ### State.setRegF -/

@[simp] theorem State.setRegF_pending (s : State) (i : RegId) (n k j lo w v : Nat) : (s.setRegF i n k j lo w v).pending = s.pending := rfl
@[simp] theorem State.setRegF_free (s : State) (i : RegId) (n k j lo w v : Nat) : (s.setRegF i n k j lo w v).free = s.free := rfl
@[simp] theorem State.setRegF_stalled (s : State) (i : RegId) (n k j lo w v : Nat) : (s.setRegF i n k j lo w v).stalled = s.stalled := rfl
@[simp] theorem State.setRegF_qos (s : State) (i : RegId) (n k j lo w v : Nat) : (s.setRegF i n k j lo w v).qos = s.qos := rfl
@[simp] theorem State.setRegF_cores (s : State) (i : RegId) (n k j lo w v : Nat) : (s.setRegF i n k j lo w v).cores = s.cores := rfl
@[simp] theorem State.setRegF_mem (s : State) (i : RegId) (n k j lo w v : Nat) : (s.setRegF i n k j lo w v).mem = s.mem := rfl
@[simp] theorem State.setRegF_notes (s : State) (i : RegId) (n k j lo w v : Nat) : (s.setRegF i n k j lo w v).notes = s.notes := rfl
@[simp] theorem State.setRegF_llc (s : State) (i : RegId) (n k j lo w v : Nat) : (s.setRegF i n k j lo w v).llc = s.llc := rfl
@[simp] theorem State.setRegF_dirs (s : State) (i : RegId) (n k j lo w v : Nat) : (s.setRegF i n k j lo w v).dirs = s.dirs := rfl
@[simp] theorem State.setRegF_dirUse (s : State) (i : RegId) (n k j lo w v : Nat) : (s.setRegF i n k j lo w v).dirUse = s.dirUse := rfl
@[simp] theorem State.setRegF_victims (s : State) (i : RegId) (n k j lo w v : Nat) : (s.setRegF i n k j lo w v).victims = s.victims := rfl
@[simp] theorem State.setRegF_txns (s : State) (i : RegId) (n k j lo w v : Nat) : (s.setRegF i n k j lo w v).txns = s.txns := rfl
@[simp] theorem State.setRegF_homeq (s : State) (i : RegId) (n k j lo w v : Nat) : (s.setRegF i n k j lo w v).homeq = s.homeq := rfl
@[simp] theorem State.setRegF_fills (s : State) (i : RegId) (n k j lo w v : Nat) : (s.setRegF i n k j lo w v).fills = s.fills := rfl
@[simp] theorem State.setRegF_ownc (s : State) (i : RegId) (n k j lo w v : Nat) : (s.setRegF i n k j lo w v).ownc = s.ownc := rfl
@[simp] theorem State.setRegF_keys (s : State) (i : RegId) (n k j lo w v : Nat) : (s.setRegF i n k j lo w v).keys = s.keys := rfl
@[simp] theorem State.setRegF_mcs (s : State) (i : RegId) (n k j lo w v : Nat) : (s.setRegF i n k j lo w v).mcs = s.mcs := rfl
@[simp] theorem State.setRegF_vlts (s : State) (i : RegId) (n k j lo w v : Nat) : (s.setRegF i n k j lo w v).vlts = s.vlts := rfl
@[simp] theorem State.setRegF_links (s : State) (i : RegId) (n k j lo w v : Nat) : (s.setRegF i n k j lo w v).links = s.links := rfl
@[simp] theorem State.setRegF_rings (s : State) (i : RegId) (n k j lo w v : Nat) : (s.setRegF i n k j lo w v).rings = s.rings := rfl
@[simp] theorem State.setRegF_heldReqs (s : State) (i : RegId) (n k j lo w v : Nat) : (s.setRegF i n k j lo w v).heldReqs = s.heldReqs := rfl
@[simp] theorem State.setRegF_map (s : State) (i : RegId) (n k j lo w v : Nat) : (s.setRegF i n k j lo w v).map = s.map := rfl
@[simp] theorem State.setRegF_power (s : State) (i : RegId) (n k j lo w v : Nat) : (s.setRegF i n k j lo w v).power = s.power := rfl
@[simp] theorem State.setRegF_irt (s : State) (i : RegId) (n k j lo w v : Nat) : (s.setRegF i n k j lo w v).irt = s.irt := rfl
@[simp] theorem State.setRegF_pm (s : State) (i : RegId) (n k j lo w v : Nat) : (s.setRegF i n k j lo w v).pm = s.pm := rfl
@[simp] theorem State.setRegF_rcs (s : State) (i : RegId) (n k j lo w v : Nat) : (s.setRegF i n k j lo w v).rcs = s.rcs := rfl
@[simp] theorem State.setRegF_iommus (s : State) (i : RegId) (n k j lo w v : Nat) : (s.setRegF i n k j lo w v).iommus = s.iommus := rfl
@[simp] theorem State.setRegF_lanes (s : State) (i : RegId) (n k j lo w v : Nat) : (s.setRegF i n k j lo w v).lanes = s.lanes := rfl
@[simp] theorem State.setRegF_vis (s : State) (i : RegId) (n k j lo w v : Nat) : (s.setRegF i n k j lo w v).vis = s.vis := rfl
@[simp] theorem State.setRegF_wicket (s : State) (i : RegId) (n k j lo w v : Nat) : (s.setRegF i n k j lo w v).wicket = s.wicket := rfl

/-! ### State.bump -/

@[simp] theorem State.bump_pending (s : State) (i : RegId) (n k j lo w a : Nat) : (s.bump i n k j lo w a).pending = s.pending := rfl
@[simp] theorem State.bump_free (s : State) (i : RegId) (n k j lo w a : Nat) : (s.bump i n k j lo w a).free = s.free := rfl
@[simp] theorem State.bump_stalled (s : State) (i : RegId) (n k j lo w a : Nat) : (s.bump i n k j lo w a).stalled = s.stalled := rfl
@[simp] theorem State.bump_qos (s : State) (i : RegId) (n k j lo w a : Nat) : (s.bump i n k j lo w a).qos = s.qos := rfl
@[simp] theorem State.bump_cores (s : State) (i : RegId) (n k j lo w a : Nat) : (s.bump i n k j lo w a).cores = s.cores := rfl
@[simp] theorem State.bump_mem (s : State) (i : RegId) (n k j lo w a : Nat) : (s.bump i n k j lo w a).mem = s.mem := rfl
@[simp] theorem State.bump_notes (s : State) (i : RegId) (n k j lo w a : Nat) : (s.bump i n k j lo w a).notes = s.notes := rfl
@[simp] theorem State.bump_llc (s : State) (i : RegId) (n k j lo w a : Nat) : (s.bump i n k j lo w a).llc = s.llc := rfl
@[simp] theorem State.bump_dirs (s : State) (i : RegId) (n k j lo w a : Nat) : (s.bump i n k j lo w a).dirs = s.dirs := rfl
@[simp] theorem State.bump_dirUse (s : State) (i : RegId) (n k j lo w a : Nat) : (s.bump i n k j lo w a).dirUse = s.dirUse := rfl
@[simp] theorem State.bump_victims (s : State) (i : RegId) (n k j lo w a : Nat) : (s.bump i n k j lo w a).victims = s.victims := rfl
@[simp] theorem State.bump_txns (s : State) (i : RegId) (n k j lo w a : Nat) : (s.bump i n k j lo w a).txns = s.txns := rfl
@[simp] theorem State.bump_homeq (s : State) (i : RegId) (n k j lo w a : Nat) : (s.bump i n k j lo w a).homeq = s.homeq := rfl
@[simp] theorem State.bump_fills (s : State) (i : RegId) (n k j lo w a : Nat) : (s.bump i n k j lo w a).fills = s.fills := rfl
@[simp] theorem State.bump_ownc (s : State) (i : RegId) (n k j lo w a : Nat) : (s.bump i n k j lo w a).ownc = s.ownc := rfl
@[simp] theorem State.bump_keys (s : State) (i : RegId) (n k j lo w a : Nat) : (s.bump i n k j lo w a).keys = s.keys := rfl
@[simp] theorem State.bump_mcs (s : State) (i : RegId) (n k j lo w a : Nat) : (s.bump i n k j lo w a).mcs = s.mcs := rfl
@[simp] theorem State.bump_vlts (s : State) (i : RegId) (n k j lo w a : Nat) : (s.bump i n k j lo w a).vlts = s.vlts := rfl
@[simp] theorem State.bump_links (s : State) (i : RegId) (n k j lo w a : Nat) : (s.bump i n k j lo w a).links = s.links := rfl
@[simp] theorem State.bump_rings (s : State) (i : RegId) (n k j lo w a : Nat) : (s.bump i n k j lo w a).rings = s.rings := rfl
@[simp] theorem State.bump_heldReqs (s : State) (i : RegId) (n k j lo w a : Nat) : (s.bump i n k j lo w a).heldReqs = s.heldReqs := rfl
@[simp] theorem State.bump_map (s : State) (i : RegId) (n k j lo w a : Nat) : (s.bump i n k j lo w a).map = s.map := rfl
@[simp] theorem State.bump_power (s : State) (i : RegId) (n k j lo w a : Nat) : (s.bump i n k j lo w a).power = s.power := rfl
@[simp] theorem State.bump_irt (s : State) (i : RegId) (n k j lo w a : Nat) : (s.bump i n k j lo w a).irt = s.irt := rfl
@[simp] theorem State.bump_pm (s : State) (i : RegId) (n k j lo w a : Nat) : (s.bump i n k j lo w a).pm = s.pm := rfl
@[simp] theorem State.bump_rcs (s : State) (i : RegId) (n k j lo w a : Nat) : (s.bump i n k j lo w a).rcs = s.rcs := rfl
@[simp] theorem State.bump_iommus (s : State) (i : RegId) (n k j lo w a : Nat) : (s.bump i n k j lo w a).iommus = s.iommus := rfl
@[simp] theorem State.bump_lanes (s : State) (i : RegId) (n k j lo w a : Nat) : (s.bump i n k j lo w a).lanes = s.lanes := rfl
@[simp] theorem State.bump_vis (s : State) (i : RegId) (n k j lo w a : Nat) : (s.bump i n k j lo w a).vis = s.vis := rfl
@[simp] theorem State.bump_wicket (s : State) (i : RegId) (n k j lo w a : Nat) : (s.bump i n k j lo w a).wicket = s.wicket := rfl

/-! ### State.useFree -/

@[simp] theorem State.useFree_pending (s : State) : (s.useFree).pending = s.pending := rfl
@[simp] theorem State.useFree_stalled (s : State) : (s.useFree).stalled = s.stalled := rfl
@[simp] theorem State.useFree_qos (s : State) : (s.useFree).qos = s.qos := rfl
@[simp] theorem State.useFree_cores (s : State) : (s.useFree).cores = s.cores := rfl
@[simp] theorem State.useFree_regs (s : State) : (s.useFree).regs = s.regs := rfl
@[simp] theorem State.useFree_mem (s : State) : (s.useFree).mem = s.mem := rfl
@[simp] theorem State.useFree_notes (s : State) : (s.useFree).notes = s.notes := rfl
@[simp] theorem State.useFree_llc (s : State) : (s.useFree).llc = s.llc := rfl
@[simp] theorem State.useFree_dirs (s : State) : (s.useFree).dirs = s.dirs := rfl
@[simp] theorem State.useFree_dirUse (s : State) : (s.useFree).dirUse = s.dirUse := rfl
@[simp] theorem State.useFree_victims (s : State) : (s.useFree).victims = s.victims := rfl
@[simp] theorem State.useFree_txns (s : State) : (s.useFree).txns = s.txns := rfl
@[simp] theorem State.useFree_homeq (s : State) : (s.useFree).homeq = s.homeq := rfl
@[simp] theorem State.useFree_fills (s : State) : (s.useFree).fills = s.fills := rfl
@[simp] theorem State.useFree_ownc (s : State) : (s.useFree).ownc = s.ownc := rfl
@[simp] theorem State.useFree_keys (s : State) : (s.useFree).keys = s.keys := rfl
@[simp] theorem State.useFree_mcs (s : State) : (s.useFree).mcs = s.mcs := rfl
@[simp] theorem State.useFree_vlts (s : State) : (s.useFree).vlts = s.vlts := rfl
@[simp] theorem State.useFree_links (s : State) : (s.useFree).links = s.links := rfl
@[simp] theorem State.useFree_rings (s : State) : (s.useFree).rings = s.rings := rfl
@[simp] theorem State.useFree_heldReqs (s : State) : (s.useFree).heldReqs = s.heldReqs := rfl
@[simp] theorem State.useFree_map (s : State) : (s.useFree).map = s.map := rfl
@[simp] theorem State.useFree_power (s : State) : (s.useFree).power = s.power := rfl
@[simp] theorem State.useFree_irt (s : State) : (s.useFree).irt = s.irt := rfl
@[simp] theorem State.useFree_pm (s : State) : (s.useFree).pm = s.pm := rfl
@[simp] theorem State.useFree_rcs (s : State) : (s.useFree).rcs = s.rcs := rfl
@[simp] theorem State.useFree_iommus (s : State) : (s.useFree).iommus = s.iommus := rfl
@[simp] theorem State.useFree_lanes (s : State) : (s.useFree).lanes = s.lanes := rfl
@[simp] theorem State.useFree_vis (s : State) : (s.useFree).vis = s.vis := rfl
@[simp] theorem State.useFree_wicket (s : State) : (s.useFree).wicket = s.wicket := rfl

/-! ### State.setMc -/

@[simp] theorem State.setMc_pending (s : State) (n : Nat) (m : Mc) : (s.setMc n m).pending = s.pending := rfl
@[simp] theorem State.setMc_free (s : State) (n : Nat) (m : Mc) : (s.setMc n m).free = s.free := rfl
@[simp] theorem State.setMc_stalled (s : State) (n : Nat) (m : Mc) : (s.setMc n m).stalled = s.stalled := rfl
@[simp] theorem State.setMc_qos (s : State) (n : Nat) (m : Mc) : (s.setMc n m).qos = s.qos := rfl
@[simp] theorem State.setMc_cores (s : State) (n : Nat) (m : Mc) : (s.setMc n m).cores = s.cores := rfl
@[simp] theorem State.setMc_regs (s : State) (n : Nat) (m : Mc) : (s.setMc n m).regs = s.regs := rfl
@[simp] theorem State.setMc_mem (s : State) (n : Nat) (m : Mc) : (s.setMc n m).mem = s.mem := rfl
@[simp] theorem State.setMc_notes (s : State) (n : Nat) (m : Mc) : (s.setMc n m).notes = s.notes := rfl
@[simp] theorem State.setMc_llc (s : State) (n : Nat) (m : Mc) : (s.setMc n m).llc = s.llc := rfl
@[simp] theorem State.setMc_dirs (s : State) (n : Nat) (m : Mc) : (s.setMc n m).dirs = s.dirs := rfl
@[simp] theorem State.setMc_dirUse (s : State) (n : Nat) (m : Mc) : (s.setMc n m).dirUse = s.dirUse := rfl
@[simp] theorem State.setMc_victims (s : State) (n : Nat) (m : Mc) : (s.setMc n m).victims = s.victims := rfl
@[simp] theorem State.setMc_txns (s : State) (n : Nat) (m : Mc) : (s.setMc n m).txns = s.txns := rfl
@[simp] theorem State.setMc_homeq (s : State) (n : Nat) (m : Mc) : (s.setMc n m).homeq = s.homeq := rfl
@[simp] theorem State.setMc_fills (s : State) (n : Nat) (m : Mc) : (s.setMc n m).fills = s.fills := rfl
@[simp] theorem State.setMc_ownc (s : State) (n : Nat) (m : Mc) : (s.setMc n m).ownc = s.ownc := rfl
@[simp] theorem State.setMc_keys (s : State) (n : Nat) (m : Mc) : (s.setMc n m).keys = s.keys := rfl
@[simp] theorem State.setMc_vlts (s : State) (n : Nat) (m : Mc) : (s.setMc n m).vlts = s.vlts := rfl
@[simp] theorem State.setMc_links (s : State) (n : Nat) (m : Mc) : (s.setMc n m).links = s.links := rfl
@[simp] theorem State.setMc_rings (s : State) (n : Nat) (m : Mc) : (s.setMc n m).rings = s.rings := rfl
@[simp] theorem State.setMc_heldReqs (s : State) (n : Nat) (m : Mc) : (s.setMc n m).heldReqs = s.heldReqs := rfl
@[simp] theorem State.setMc_map (s : State) (n : Nat) (m : Mc) : (s.setMc n m).map = s.map := rfl
@[simp] theorem State.setMc_power (s : State) (n : Nat) (m : Mc) : (s.setMc n m).power = s.power := rfl
@[simp] theorem State.setMc_irt (s : State) (n : Nat) (m : Mc) : (s.setMc n m).irt = s.irt := rfl
@[simp] theorem State.setMc_pm (s : State) (n : Nat) (m : Mc) : (s.setMc n m).pm = s.pm := rfl
@[simp] theorem State.setMc_rcs (s : State) (n : Nat) (m : Mc) : (s.setMc n m).rcs = s.rcs := rfl
@[simp] theorem State.setMc_iommus (s : State) (n : Nat) (m : Mc) : (s.setMc n m).iommus = s.iommus := rfl
@[simp] theorem State.setMc_lanes (s : State) (n : Nat) (m : Mc) : (s.setMc n m).lanes = s.lanes := rfl
@[simp] theorem State.setMc_vis (s : State) (n : Nat) (m : Mc) : (s.setMc n m).vis = s.vis := rfl
@[simp] theorem State.setMc_wicket (s : State) (n : Nat) (m : Mc) : (s.setMc n m).wicket = s.wicket := rfl

/-! ### State.setNote -/

@[simp] theorem State.setNote_pending (s : State) (l : Nat) (x : LineNote) : (s.setNote l x).pending = s.pending := rfl
@[simp] theorem State.setNote_free (s : State) (l : Nat) (x : LineNote) : (s.setNote l x).free = s.free := rfl
@[simp] theorem State.setNote_stalled (s : State) (l : Nat) (x : LineNote) : (s.setNote l x).stalled = s.stalled := rfl
@[simp] theorem State.setNote_qos (s : State) (l : Nat) (x : LineNote) : (s.setNote l x).qos = s.qos := rfl
@[simp] theorem State.setNote_cores (s : State) (l : Nat) (x : LineNote) : (s.setNote l x).cores = s.cores := rfl
@[simp] theorem State.setNote_regs (s : State) (l : Nat) (x : LineNote) : (s.setNote l x).regs = s.regs := rfl
@[simp] theorem State.setNote_mem (s : State) (l : Nat) (x : LineNote) : (s.setNote l x).mem = s.mem := rfl
@[simp] theorem State.setNote_llc (s : State) (l : Nat) (x : LineNote) : (s.setNote l x).llc = s.llc := rfl
@[simp] theorem State.setNote_dirs (s : State) (l : Nat) (x : LineNote) : (s.setNote l x).dirs = s.dirs := rfl
@[simp] theorem State.setNote_dirUse (s : State) (l : Nat) (x : LineNote) : (s.setNote l x).dirUse = s.dirUse := rfl
@[simp] theorem State.setNote_victims (s : State) (l : Nat) (x : LineNote) : (s.setNote l x).victims = s.victims := rfl
@[simp] theorem State.setNote_txns (s : State) (l : Nat) (x : LineNote) : (s.setNote l x).txns = s.txns := rfl
@[simp] theorem State.setNote_homeq (s : State) (l : Nat) (x : LineNote) : (s.setNote l x).homeq = s.homeq := rfl
@[simp] theorem State.setNote_fills (s : State) (l : Nat) (x : LineNote) : (s.setNote l x).fills = s.fills := rfl
@[simp] theorem State.setNote_ownc (s : State) (l : Nat) (x : LineNote) : (s.setNote l x).ownc = s.ownc := rfl
@[simp] theorem State.setNote_keys (s : State) (l : Nat) (x : LineNote) : (s.setNote l x).keys = s.keys := rfl
@[simp] theorem State.setNote_mcs (s : State) (l : Nat) (x : LineNote) : (s.setNote l x).mcs = s.mcs := rfl
@[simp] theorem State.setNote_vlts (s : State) (l : Nat) (x : LineNote) : (s.setNote l x).vlts = s.vlts := rfl
@[simp] theorem State.setNote_links (s : State) (l : Nat) (x : LineNote) : (s.setNote l x).links = s.links := rfl
@[simp] theorem State.setNote_rings (s : State) (l : Nat) (x : LineNote) : (s.setNote l x).rings = s.rings := rfl
@[simp] theorem State.setNote_heldReqs (s : State) (l : Nat) (x : LineNote) : (s.setNote l x).heldReqs = s.heldReqs := rfl
@[simp] theorem State.setNote_map (s : State) (l : Nat) (x : LineNote) : (s.setNote l x).map = s.map := rfl
@[simp] theorem State.setNote_power (s : State) (l : Nat) (x : LineNote) : (s.setNote l x).power = s.power := rfl
@[simp] theorem State.setNote_irt (s : State) (l : Nat) (x : LineNote) : (s.setNote l x).irt = s.irt := rfl
@[simp] theorem State.setNote_pm (s : State) (l : Nat) (x : LineNote) : (s.setNote l x).pm = s.pm := rfl
@[simp] theorem State.setNote_rcs (s : State) (l : Nat) (x : LineNote) : (s.setNote l x).rcs = s.rcs := rfl
@[simp] theorem State.setNote_iommus (s : State) (l : Nat) (x : LineNote) : (s.setNote l x).iommus = s.iommus := rfl
@[simp] theorem State.setNote_lanes (s : State) (l : Nat) (x : LineNote) : (s.setNote l x).lanes = s.lanes := rfl
@[simp] theorem State.setNote_vis (s : State) (l : Nat) (x : LineNote) : (s.setNote l x).vis = s.vis := rfl
@[simp] theorem State.setNote_wicket (s : State) (l : Nat) (x : LineNote) : (s.setNote l x).wicket = s.wicket := rfl

/-! ### State.setRc -/

@[simp] theorem State.setRc_pending (s : State) (k : Nat) (r : Rc) : (s.setRc k r).pending = s.pending := rfl
@[simp] theorem State.setRc_free (s : State) (k : Nat) (r : Rc) : (s.setRc k r).free = s.free := rfl
@[simp] theorem State.setRc_stalled (s : State) (k : Nat) (r : Rc) : (s.setRc k r).stalled = s.stalled := rfl
@[simp] theorem State.setRc_qos (s : State) (k : Nat) (r : Rc) : (s.setRc k r).qos = s.qos := rfl
@[simp] theorem State.setRc_cores (s : State) (k : Nat) (r : Rc) : (s.setRc k r).cores = s.cores := rfl
@[simp] theorem State.setRc_regs (s : State) (k : Nat) (r : Rc) : (s.setRc k r).regs = s.regs := rfl
@[simp] theorem State.setRc_mem (s : State) (k : Nat) (r : Rc) : (s.setRc k r).mem = s.mem := rfl
@[simp] theorem State.setRc_notes (s : State) (k : Nat) (r : Rc) : (s.setRc k r).notes = s.notes := rfl
@[simp] theorem State.setRc_llc (s : State) (k : Nat) (r : Rc) : (s.setRc k r).llc = s.llc := rfl
@[simp] theorem State.setRc_dirs (s : State) (k : Nat) (r : Rc) : (s.setRc k r).dirs = s.dirs := rfl
@[simp] theorem State.setRc_dirUse (s : State) (k : Nat) (r : Rc) : (s.setRc k r).dirUse = s.dirUse := rfl
@[simp] theorem State.setRc_victims (s : State) (k : Nat) (r : Rc) : (s.setRc k r).victims = s.victims := rfl
@[simp] theorem State.setRc_txns (s : State) (k : Nat) (r : Rc) : (s.setRc k r).txns = s.txns := rfl
@[simp] theorem State.setRc_homeq (s : State) (k : Nat) (r : Rc) : (s.setRc k r).homeq = s.homeq := rfl
@[simp] theorem State.setRc_fills (s : State) (k : Nat) (r : Rc) : (s.setRc k r).fills = s.fills := rfl
@[simp] theorem State.setRc_ownc (s : State) (k : Nat) (r : Rc) : (s.setRc k r).ownc = s.ownc := rfl
@[simp] theorem State.setRc_keys (s : State) (k : Nat) (r : Rc) : (s.setRc k r).keys = s.keys := rfl
@[simp] theorem State.setRc_mcs (s : State) (k : Nat) (r : Rc) : (s.setRc k r).mcs = s.mcs := rfl
@[simp] theorem State.setRc_vlts (s : State) (k : Nat) (r : Rc) : (s.setRc k r).vlts = s.vlts := rfl
@[simp] theorem State.setRc_links (s : State) (k : Nat) (r : Rc) : (s.setRc k r).links = s.links := rfl
@[simp] theorem State.setRc_rings (s : State) (k : Nat) (r : Rc) : (s.setRc k r).rings = s.rings := rfl
@[simp] theorem State.setRc_heldReqs (s : State) (k : Nat) (r : Rc) : (s.setRc k r).heldReqs = s.heldReqs := rfl
@[simp] theorem State.setRc_map (s : State) (k : Nat) (r : Rc) : (s.setRc k r).map = s.map := rfl
@[simp] theorem State.setRc_power (s : State) (k : Nat) (r : Rc) : (s.setRc k r).power = s.power := rfl
@[simp] theorem State.setRc_irt (s : State) (k : Nat) (r : Rc) : (s.setRc k r).irt = s.irt := rfl
@[simp] theorem State.setRc_pm (s : State) (k : Nat) (r : Rc) : (s.setRc k r).pm = s.pm := rfl
@[simp] theorem State.setRc_iommus (s : State) (k : Nat) (r : Rc) : (s.setRc k r).iommus = s.iommus := rfl
@[simp] theorem State.setRc_lanes (s : State) (k : Nat) (r : Rc) : (s.setRc k r).lanes = s.lanes := rfl
@[simp] theorem State.setRc_vis (s : State) (k : Nat) (r : Rc) : (s.setRc k r).vis = s.vis := rfl
@[simp] theorem State.setRc_wicket (s : State) (k : Nat) (r : Rc) : (s.setRc k r).wicket = s.wicket := rfl

/-! ### State.setPort -/

@[simp] theorem State.setPort_pending (s : State) (k p : Nat) (x : RootPort) : (s.setPort k p x).pending = s.pending := rfl
@[simp] theorem State.setPort_free (s : State) (k p : Nat) (x : RootPort) : (s.setPort k p x).free = s.free := rfl
@[simp] theorem State.setPort_stalled (s : State) (k p : Nat) (x : RootPort) : (s.setPort k p x).stalled = s.stalled := rfl
@[simp] theorem State.setPort_qos (s : State) (k p : Nat) (x : RootPort) : (s.setPort k p x).qos = s.qos := rfl
@[simp] theorem State.setPort_cores (s : State) (k p : Nat) (x : RootPort) : (s.setPort k p x).cores = s.cores := rfl
@[simp] theorem State.setPort_regs (s : State) (k p : Nat) (x : RootPort) : (s.setPort k p x).regs = s.regs := rfl
@[simp] theorem State.setPort_mem (s : State) (k p : Nat) (x : RootPort) : (s.setPort k p x).mem = s.mem := rfl
@[simp] theorem State.setPort_notes (s : State) (k p : Nat) (x : RootPort) : (s.setPort k p x).notes = s.notes := rfl
@[simp] theorem State.setPort_llc (s : State) (k p : Nat) (x : RootPort) : (s.setPort k p x).llc = s.llc := rfl
@[simp] theorem State.setPort_dirs (s : State) (k p : Nat) (x : RootPort) : (s.setPort k p x).dirs = s.dirs := rfl
@[simp] theorem State.setPort_dirUse (s : State) (k p : Nat) (x : RootPort) : (s.setPort k p x).dirUse = s.dirUse := rfl
@[simp] theorem State.setPort_victims (s : State) (k p : Nat) (x : RootPort) : (s.setPort k p x).victims = s.victims := rfl
@[simp] theorem State.setPort_txns (s : State) (k p : Nat) (x : RootPort) : (s.setPort k p x).txns = s.txns := rfl
@[simp] theorem State.setPort_homeq (s : State) (k p : Nat) (x : RootPort) : (s.setPort k p x).homeq = s.homeq := rfl
@[simp] theorem State.setPort_fills (s : State) (k p : Nat) (x : RootPort) : (s.setPort k p x).fills = s.fills := rfl
@[simp] theorem State.setPort_ownc (s : State) (k p : Nat) (x : RootPort) : (s.setPort k p x).ownc = s.ownc := rfl
@[simp] theorem State.setPort_keys (s : State) (k p : Nat) (x : RootPort) : (s.setPort k p x).keys = s.keys := rfl
@[simp] theorem State.setPort_mcs (s : State) (k p : Nat) (x : RootPort) : (s.setPort k p x).mcs = s.mcs := rfl
@[simp] theorem State.setPort_vlts (s : State) (k p : Nat) (x : RootPort) : (s.setPort k p x).vlts = s.vlts := rfl
@[simp] theorem State.setPort_links (s : State) (k p : Nat) (x : RootPort) : (s.setPort k p x).links = s.links := rfl
@[simp] theorem State.setPort_rings (s : State) (k p : Nat) (x : RootPort) : (s.setPort k p x).rings = s.rings := rfl
@[simp] theorem State.setPort_heldReqs (s : State) (k p : Nat) (x : RootPort) : (s.setPort k p x).heldReqs = s.heldReqs := rfl
@[simp] theorem State.setPort_map (s : State) (k p : Nat) (x : RootPort) : (s.setPort k p x).map = s.map := rfl
@[simp] theorem State.setPort_power (s : State) (k p : Nat) (x : RootPort) : (s.setPort k p x).power = s.power := rfl
@[simp] theorem State.setPort_irt (s : State) (k p : Nat) (x : RootPort) : (s.setPort k p x).irt = s.irt := rfl
@[simp] theorem State.setPort_pm (s : State) (k p : Nat) (x : RootPort) : (s.setPort k p x).pm = s.pm := rfl
@[simp] theorem State.setPort_iommus (s : State) (k p : Nat) (x : RootPort) : (s.setPort k p x).iommus = s.iommus := rfl
@[simp] theorem State.setPort_lanes (s : State) (k p : Nat) (x : RootPort) : (s.setPort k p x).lanes = s.lanes := rfl
@[simp] theorem State.setPort_vis (s : State) (k p : Nat) (x : RootPort) : (s.setPort k p x).vis = s.vis := rfl
@[simp] theorem State.setPort_wicket (s : State) (k p : Nat) (x : RootPort) : (s.setPort k p x).wicket = s.wicket := rfl

/-! ### State.setIommu -/

@[simp] theorem State.setIommu_pending (s : State) (a : Dma) (x : Iommu) : (s.setIommu a x).pending = s.pending := rfl
@[simp] theorem State.setIommu_free (s : State) (a : Dma) (x : Iommu) : (s.setIommu a x).free = s.free := rfl
@[simp] theorem State.setIommu_stalled (s : State) (a : Dma) (x : Iommu) : (s.setIommu a x).stalled = s.stalled := rfl
@[simp] theorem State.setIommu_qos (s : State) (a : Dma) (x : Iommu) : (s.setIommu a x).qos = s.qos := rfl
@[simp] theorem State.setIommu_cores (s : State) (a : Dma) (x : Iommu) : (s.setIommu a x).cores = s.cores := rfl
@[simp] theorem State.setIommu_regs (s : State) (a : Dma) (x : Iommu) : (s.setIommu a x).regs = s.regs := rfl
@[simp] theorem State.setIommu_mem (s : State) (a : Dma) (x : Iommu) : (s.setIommu a x).mem = s.mem := rfl
@[simp] theorem State.setIommu_notes (s : State) (a : Dma) (x : Iommu) : (s.setIommu a x).notes = s.notes := rfl
@[simp] theorem State.setIommu_llc (s : State) (a : Dma) (x : Iommu) : (s.setIommu a x).llc = s.llc := rfl
@[simp] theorem State.setIommu_dirs (s : State) (a : Dma) (x : Iommu) : (s.setIommu a x).dirs = s.dirs := rfl
@[simp] theorem State.setIommu_dirUse (s : State) (a : Dma) (x : Iommu) : (s.setIommu a x).dirUse = s.dirUse := rfl
@[simp] theorem State.setIommu_victims (s : State) (a : Dma) (x : Iommu) : (s.setIommu a x).victims = s.victims := rfl
@[simp] theorem State.setIommu_txns (s : State) (a : Dma) (x : Iommu) : (s.setIommu a x).txns = s.txns := rfl
@[simp] theorem State.setIommu_homeq (s : State) (a : Dma) (x : Iommu) : (s.setIommu a x).homeq = s.homeq := rfl
@[simp] theorem State.setIommu_fills (s : State) (a : Dma) (x : Iommu) : (s.setIommu a x).fills = s.fills := rfl
@[simp] theorem State.setIommu_ownc (s : State) (a : Dma) (x : Iommu) : (s.setIommu a x).ownc = s.ownc := rfl
@[simp] theorem State.setIommu_keys (s : State) (a : Dma) (x : Iommu) : (s.setIommu a x).keys = s.keys := rfl
@[simp] theorem State.setIommu_mcs (s : State) (a : Dma) (x : Iommu) : (s.setIommu a x).mcs = s.mcs := rfl
@[simp] theorem State.setIommu_vlts (s : State) (a : Dma) (x : Iommu) : (s.setIommu a x).vlts = s.vlts := rfl
@[simp] theorem State.setIommu_links (s : State) (a : Dma) (x : Iommu) : (s.setIommu a x).links = s.links := rfl
@[simp] theorem State.setIommu_rings (s : State) (a : Dma) (x : Iommu) : (s.setIommu a x).rings = s.rings := rfl
@[simp] theorem State.setIommu_heldReqs (s : State) (a : Dma) (x : Iommu) : (s.setIommu a x).heldReqs = s.heldReqs := rfl
@[simp] theorem State.setIommu_map (s : State) (a : Dma) (x : Iommu) : (s.setIommu a x).map = s.map := rfl
@[simp] theorem State.setIommu_power (s : State) (a : Dma) (x : Iommu) : (s.setIommu a x).power = s.power := rfl
@[simp] theorem State.setIommu_irt (s : State) (a : Dma) (x : Iommu) : (s.setIommu a x).irt = s.irt := rfl
@[simp] theorem State.setIommu_pm (s : State) (a : Dma) (x : Iommu) : (s.setIommu a x).pm = s.pm := rfl
@[simp] theorem State.setIommu_rcs (s : State) (a : Dma) (x : Iommu) : (s.setIommu a x).rcs = s.rcs := rfl
@[simp] theorem State.setIommu_lanes (s : State) (a : Dma) (x : Iommu) : (s.setIommu a x).lanes = s.lanes := rfl
@[simp] theorem State.setIommu_vis (s : State) (a : Dma) (x : Iommu) : (s.setIommu a x).vis = s.vis := rfl
@[simp] theorem State.setIommu_wicket (s : State) (a : Dma) (x : Iommu) : (s.setIommu a x).wicket = s.wicket := rfl

/-! ### State.setVr -/

@[simp] theorem State.setVr_pending (s : State) (r : Nat) (v : Vr) : (s.setVr r v).pending = s.pending := rfl
@[simp] theorem State.setVr_free (s : State) (r : Nat) (v : Vr) : (s.setVr r v).free = s.free := rfl
@[simp] theorem State.setVr_stalled (s : State) (r : Nat) (v : Vr) : (s.setVr r v).stalled = s.stalled := rfl
@[simp] theorem State.setVr_qos (s : State) (r : Nat) (v : Vr) : (s.setVr r v).qos = s.qos := rfl
@[simp] theorem State.setVr_cores (s : State) (r : Nat) (v : Vr) : (s.setVr r v).cores = s.cores := rfl
@[simp] theorem State.setVr_regs (s : State) (r : Nat) (v : Vr) : (s.setVr r v).regs = s.regs := rfl
@[simp] theorem State.setVr_mem (s : State) (r : Nat) (v : Vr) : (s.setVr r v).mem = s.mem := rfl
@[simp] theorem State.setVr_notes (s : State) (r : Nat) (v : Vr) : (s.setVr r v).notes = s.notes := rfl
@[simp] theorem State.setVr_llc (s : State) (r : Nat) (v : Vr) : (s.setVr r v).llc = s.llc := rfl
@[simp] theorem State.setVr_dirs (s : State) (r : Nat) (v : Vr) : (s.setVr r v).dirs = s.dirs := rfl
@[simp] theorem State.setVr_dirUse (s : State) (r : Nat) (v : Vr) : (s.setVr r v).dirUse = s.dirUse := rfl
@[simp] theorem State.setVr_victims (s : State) (r : Nat) (v : Vr) : (s.setVr r v).victims = s.victims := rfl
@[simp] theorem State.setVr_txns (s : State) (r : Nat) (v : Vr) : (s.setVr r v).txns = s.txns := rfl
@[simp] theorem State.setVr_homeq (s : State) (r : Nat) (v : Vr) : (s.setVr r v).homeq = s.homeq := rfl
@[simp] theorem State.setVr_fills (s : State) (r : Nat) (v : Vr) : (s.setVr r v).fills = s.fills := rfl
@[simp] theorem State.setVr_ownc (s : State) (r : Nat) (v : Vr) : (s.setVr r v).ownc = s.ownc := rfl
@[simp] theorem State.setVr_keys (s : State) (r : Nat) (v : Vr) : (s.setVr r v).keys = s.keys := rfl
@[simp] theorem State.setVr_mcs (s : State) (r : Nat) (v : Vr) : (s.setVr r v).mcs = s.mcs := rfl
@[simp] theorem State.setVr_vlts (s : State) (r : Nat) (v : Vr) : (s.setVr r v).vlts = s.vlts := rfl
@[simp] theorem State.setVr_links (s : State) (r : Nat) (v : Vr) : (s.setVr r v).links = s.links := rfl
@[simp] theorem State.setVr_rings (s : State) (r : Nat) (v : Vr) : (s.setVr r v).rings = s.rings := rfl
@[simp] theorem State.setVr_heldReqs (s : State) (r : Nat) (v : Vr) : (s.setVr r v).heldReqs = s.heldReqs := rfl
@[simp] theorem State.setVr_map (s : State) (r : Nat) (v : Vr) : (s.setVr r v).map = s.map := rfl
@[simp] theorem State.setVr_irt (s : State) (r : Nat) (v : Vr) : (s.setVr r v).irt = s.irt := rfl
@[simp] theorem State.setVr_pm (s : State) (r : Nat) (v : Vr) : (s.setVr r v).pm = s.pm := rfl
@[simp] theorem State.setVr_rcs (s : State) (r : Nat) (v : Vr) : (s.setVr r v).rcs = s.rcs := rfl
@[simp] theorem State.setVr_iommus (s : State) (r : Nat) (v : Vr) : (s.setVr r v).iommus = s.iommus := rfl
@[simp] theorem State.setVr_lanes (s : State) (r : Nat) (v : Vr) : (s.setVr r v).lanes = s.lanes := rfl
@[simp] theorem State.setVr_vis (s : State) (r : Nat) (v : Vr) : (s.setVr r v).vis = s.vis := rfl
@[simp] theorem State.setVr_wicket (s : State) (r : Nat) (v : Vr) : (s.setVr r v).wicket = s.wicket := rfl

/-! ### State.setRaise -/

@[simp] theorem State.setRaise_pending (s : State) (d : Nat) (r : Raise) : (s.setRaise d r).pending = s.pending := rfl
@[simp] theorem State.setRaise_free (s : State) (d : Nat) (r : Raise) : (s.setRaise d r).free = s.free := rfl
@[simp] theorem State.setRaise_stalled (s : State) (d : Nat) (r : Raise) : (s.setRaise d r).stalled = s.stalled := rfl
@[simp] theorem State.setRaise_qos (s : State) (d : Nat) (r : Raise) : (s.setRaise d r).qos = s.qos := rfl
@[simp] theorem State.setRaise_cores (s : State) (d : Nat) (r : Raise) : (s.setRaise d r).cores = s.cores := rfl
@[simp] theorem State.setRaise_regs (s : State) (d : Nat) (r : Raise) : (s.setRaise d r).regs = s.regs := rfl
@[simp] theorem State.setRaise_mem (s : State) (d : Nat) (r : Raise) : (s.setRaise d r).mem = s.mem := rfl
@[simp] theorem State.setRaise_notes (s : State) (d : Nat) (r : Raise) : (s.setRaise d r).notes = s.notes := rfl
@[simp] theorem State.setRaise_llc (s : State) (d : Nat) (r : Raise) : (s.setRaise d r).llc = s.llc := rfl
@[simp] theorem State.setRaise_dirs (s : State) (d : Nat) (r : Raise) : (s.setRaise d r).dirs = s.dirs := rfl
@[simp] theorem State.setRaise_dirUse (s : State) (d : Nat) (r : Raise) : (s.setRaise d r).dirUse = s.dirUse := rfl
@[simp] theorem State.setRaise_victims (s : State) (d : Nat) (r : Raise) : (s.setRaise d r).victims = s.victims := rfl
@[simp] theorem State.setRaise_txns (s : State) (d : Nat) (r : Raise) : (s.setRaise d r).txns = s.txns := rfl
@[simp] theorem State.setRaise_homeq (s : State) (d : Nat) (r : Raise) : (s.setRaise d r).homeq = s.homeq := rfl
@[simp] theorem State.setRaise_fills (s : State) (d : Nat) (r : Raise) : (s.setRaise d r).fills = s.fills := rfl
@[simp] theorem State.setRaise_ownc (s : State) (d : Nat) (r : Raise) : (s.setRaise d r).ownc = s.ownc := rfl
@[simp] theorem State.setRaise_keys (s : State) (d : Nat) (r : Raise) : (s.setRaise d r).keys = s.keys := rfl
@[simp] theorem State.setRaise_mcs (s : State) (d : Nat) (r : Raise) : (s.setRaise d r).mcs = s.mcs := rfl
@[simp] theorem State.setRaise_vlts (s : State) (d : Nat) (r : Raise) : (s.setRaise d r).vlts = s.vlts := rfl
@[simp] theorem State.setRaise_links (s : State) (d : Nat) (r : Raise) : (s.setRaise d r).links = s.links := rfl
@[simp] theorem State.setRaise_rings (s : State) (d : Nat) (r : Raise) : (s.setRaise d r).rings = s.rings := rfl
@[simp] theorem State.setRaise_heldReqs (s : State) (d : Nat) (r : Raise) : (s.setRaise d r).heldReqs = s.heldReqs := rfl
@[simp] theorem State.setRaise_map (s : State) (d : Nat) (r : Raise) : (s.setRaise d r).map = s.map := rfl
@[simp] theorem State.setRaise_irt (s : State) (d : Nat) (r : Raise) : (s.setRaise d r).irt = s.irt := rfl
@[simp] theorem State.setRaise_pm (s : State) (d : Nat) (r : Raise) : (s.setRaise d r).pm = s.pm := rfl
@[simp] theorem State.setRaise_rcs (s : State) (d : Nat) (r : Raise) : (s.setRaise d r).rcs = s.rcs := rfl
@[simp] theorem State.setRaise_iommus (s : State) (d : Nat) (r : Raise) : (s.setRaise d r).iommus = s.iommus := rfl
@[simp] theorem State.setRaise_lanes (s : State) (d : Nat) (r : Raise) : (s.setRaise d r).lanes = s.lanes := rfl
@[simp] theorem State.setRaise_vis (s : State) (d : Nat) (r : Raise) : (s.setRaise d r).vis = s.vis := rfl
@[simp] theorem State.setRaise_wicket (s : State) (d : Nat) (r : Raise) : (s.setRaise d r).wicket = s.wicket := rfl

/-! ### State.setLane -/

@[simp] theorem State.setLane_pending (s : State) (k l : Nat) (x : Lane) : (s.setLane k l x).pending = s.pending := rfl
@[simp] theorem State.setLane_free (s : State) (k l : Nat) (x : Lane) : (s.setLane k l x).free = s.free := rfl
@[simp] theorem State.setLane_stalled (s : State) (k l : Nat) (x : Lane) : (s.setLane k l x).stalled = s.stalled := rfl
@[simp] theorem State.setLane_qos (s : State) (k l : Nat) (x : Lane) : (s.setLane k l x).qos = s.qos := rfl
@[simp] theorem State.setLane_cores (s : State) (k l : Nat) (x : Lane) : (s.setLane k l x).cores = s.cores := rfl
@[simp] theorem State.setLane_regs (s : State) (k l : Nat) (x : Lane) : (s.setLane k l x).regs = s.regs := rfl
@[simp] theorem State.setLane_mem (s : State) (k l : Nat) (x : Lane) : (s.setLane k l x).mem = s.mem := rfl
@[simp] theorem State.setLane_notes (s : State) (k l : Nat) (x : Lane) : (s.setLane k l x).notes = s.notes := rfl
@[simp] theorem State.setLane_llc (s : State) (k l : Nat) (x : Lane) : (s.setLane k l x).llc = s.llc := rfl
@[simp] theorem State.setLane_dirs (s : State) (k l : Nat) (x : Lane) : (s.setLane k l x).dirs = s.dirs := rfl
@[simp] theorem State.setLane_dirUse (s : State) (k l : Nat) (x : Lane) : (s.setLane k l x).dirUse = s.dirUse := rfl
@[simp] theorem State.setLane_victims (s : State) (k l : Nat) (x : Lane) : (s.setLane k l x).victims = s.victims := rfl
@[simp] theorem State.setLane_txns (s : State) (k l : Nat) (x : Lane) : (s.setLane k l x).txns = s.txns := rfl
@[simp] theorem State.setLane_homeq (s : State) (k l : Nat) (x : Lane) : (s.setLane k l x).homeq = s.homeq := rfl
@[simp] theorem State.setLane_fills (s : State) (k l : Nat) (x : Lane) : (s.setLane k l x).fills = s.fills := rfl
@[simp] theorem State.setLane_ownc (s : State) (k l : Nat) (x : Lane) : (s.setLane k l x).ownc = s.ownc := rfl
@[simp] theorem State.setLane_keys (s : State) (k l : Nat) (x : Lane) : (s.setLane k l x).keys = s.keys := rfl
@[simp] theorem State.setLane_mcs (s : State) (k l : Nat) (x : Lane) : (s.setLane k l x).mcs = s.mcs := rfl
@[simp] theorem State.setLane_vlts (s : State) (k l : Nat) (x : Lane) : (s.setLane k l x).vlts = s.vlts := rfl
@[simp] theorem State.setLane_links (s : State) (k l : Nat) (x : Lane) : (s.setLane k l x).links = s.links := rfl
@[simp] theorem State.setLane_rings (s : State) (k l : Nat) (x : Lane) : (s.setLane k l x).rings = s.rings := rfl
@[simp] theorem State.setLane_heldReqs (s : State) (k l : Nat) (x : Lane) : (s.setLane k l x).heldReqs = s.heldReqs := rfl
@[simp] theorem State.setLane_map (s : State) (k l : Nat) (x : Lane) : (s.setLane k l x).map = s.map := rfl
@[simp] theorem State.setLane_power (s : State) (k l : Nat) (x : Lane) : (s.setLane k l x).power = s.power := rfl
@[simp] theorem State.setLane_irt (s : State) (k l : Nat) (x : Lane) : (s.setLane k l x).irt = s.irt := rfl
@[simp] theorem State.setLane_pm (s : State) (k l : Nat) (x : Lane) : (s.setLane k l x).pm = s.pm := rfl
@[simp] theorem State.setLane_rcs (s : State) (k l : Nat) (x : Lane) : (s.setLane k l x).rcs = s.rcs := rfl
@[simp] theorem State.setLane_iommus (s : State) (k l : Nat) (x : Lane) : (s.setLane k l x).iommus = s.iommus := rfl
@[simp] theorem State.setLane_vis (s : State) (k l : Nat) (x : Lane) : (s.setLane k l x).vis = s.vis := rfl
@[simp] theorem State.setLane_wicket (s : State) (k l : Nat) (x : Lane) : (s.setLane k l x).wicket = s.wicket := rfl

/-! ### State.setVi -/

@[simp] theorem State.setVi_pending (s : State) (k v : Nat) (x : Vi) : (s.setVi k v x).pending = s.pending := rfl
@[simp] theorem State.setVi_free (s : State) (k v : Nat) (x : Vi) : (s.setVi k v x).free = s.free := rfl
@[simp] theorem State.setVi_stalled (s : State) (k v : Nat) (x : Vi) : (s.setVi k v x).stalled = s.stalled := rfl
@[simp] theorem State.setVi_qos (s : State) (k v : Nat) (x : Vi) : (s.setVi k v x).qos = s.qos := rfl
@[simp] theorem State.setVi_cores (s : State) (k v : Nat) (x : Vi) : (s.setVi k v x).cores = s.cores := rfl
@[simp] theorem State.setVi_regs (s : State) (k v : Nat) (x : Vi) : (s.setVi k v x).regs = s.regs := rfl
@[simp] theorem State.setVi_mem (s : State) (k v : Nat) (x : Vi) : (s.setVi k v x).mem = s.mem := rfl
@[simp] theorem State.setVi_notes (s : State) (k v : Nat) (x : Vi) : (s.setVi k v x).notes = s.notes := rfl
@[simp] theorem State.setVi_llc (s : State) (k v : Nat) (x : Vi) : (s.setVi k v x).llc = s.llc := rfl
@[simp] theorem State.setVi_dirs (s : State) (k v : Nat) (x : Vi) : (s.setVi k v x).dirs = s.dirs := rfl
@[simp] theorem State.setVi_dirUse (s : State) (k v : Nat) (x : Vi) : (s.setVi k v x).dirUse = s.dirUse := rfl
@[simp] theorem State.setVi_victims (s : State) (k v : Nat) (x : Vi) : (s.setVi k v x).victims = s.victims := rfl
@[simp] theorem State.setVi_txns (s : State) (k v : Nat) (x : Vi) : (s.setVi k v x).txns = s.txns := rfl
@[simp] theorem State.setVi_homeq (s : State) (k v : Nat) (x : Vi) : (s.setVi k v x).homeq = s.homeq := rfl
@[simp] theorem State.setVi_fills (s : State) (k v : Nat) (x : Vi) : (s.setVi k v x).fills = s.fills := rfl
@[simp] theorem State.setVi_ownc (s : State) (k v : Nat) (x : Vi) : (s.setVi k v x).ownc = s.ownc := rfl
@[simp] theorem State.setVi_keys (s : State) (k v : Nat) (x : Vi) : (s.setVi k v x).keys = s.keys := rfl
@[simp] theorem State.setVi_mcs (s : State) (k v : Nat) (x : Vi) : (s.setVi k v x).mcs = s.mcs := rfl
@[simp] theorem State.setVi_vlts (s : State) (k v : Nat) (x : Vi) : (s.setVi k v x).vlts = s.vlts := rfl
@[simp] theorem State.setVi_links (s : State) (k v : Nat) (x : Vi) : (s.setVi k v x).links = s.links := rfl
@[simp] theorem State.setVi_rings (s : State) (k v : Nat) (x : Vi) : (s.setVi k v x).rings = s.rings := rfl
@[simp] theorem State.setVi_heldReqs (s : State) (k v : Nat) (x : Vi) : (s.setVi k v x).heldReqs = s.heldReqs := rfl
@[simp] theorem State.setVi_map (s : State) (k v : Nat) (x : Vi) : (s.setVi k v x).map = s.map := rfl
@[simp] theorem State.setVi_power (s : State) (k v : Nat) (x : Vi) : (s.setVi k v x).power = s.power := rfl
@[simp] theorem State.setVi_irt (s : State) (k v : Nat) (x : Vi) : (s.setVi k v x).irt = s.irt := rfl
@[simp] theorem State.setVi_pm (s : State) (k v : Nat) (x : Vi) : (s.setVi k v x).pm = s.pm := rfl
@[simp] theorem State.setVi_rcs (s : State) (k v : Nat) (x : Vi) : (s.setVi k v x).rcs = s.rcs := rfl
@[simp] theorem State.setVi_iommus (s : State) (k v : Nat) (x : Vi) : (s.setVi k v x).iommus = s.iommus := rfl
@[simp] theorem State.setVi_lanes (s : State) (k v : Nat) (x : Vi) : (s.setVi k v x).lanes = s.lanes := rfl
@[simp] theorem State.setVi_wicket (s : State) (k v : Nat) (x : Vi) : (s.setVi k v x).wicket = s.wicket := rfl

/-! ### State.onWicket -/

@[simp] theorem State.onWicket_pending (s : State) (f : Wicket → Wicket) : (s.onWicket f).pending = s.pending := rfl
@[simp] theorem State.onWicket_free (s : State) (f : Wicket → Wicket) : (s.onWicket f).free = s.free := rfl
@[simp] theorem State.onWicket_stalled (s : State) (f : Wicket → Wicket) : (s.onWicket f).stalled = s.stalled := rfl
@[simp] theorem State.onWicket_qos (s : State) (f : Wicket → Wicket) : (s.onWicket f).qos = s.qos := rfl
@[simp] theorem State.onWicket_cores (s : State) (f : Wicket → Wicket) : (s.onWicket f).cores = s.cores := rfl
@[simp] theorem State.onWicket_regs (s : State) (f : Wicket → Wicket) : (s.onWicket f).regs = s.regs := rfl
@[simp] theorem State.onWicket_mem (s : State) (f : Wicket → Wicket) : (s.onWicket f).mem = s.mem := rfl
@[simp] theorem State.onWicket_notes (s : State) (f : Wicket → Wicket) : (s.onWicket f).notes = s.notes := rfl
@[simp] theorem State.onWicket_llc (s : State) (f : Wicket → Wicket) : (s.onWicket f).llc = s.llc := rfl
@[simp] theorem State.onWicket_dirs (s : State) (f : Wicket → Wicket) : (s.onWicket f).dirs = s.dirs := rfl
@[simp] theorem State.onWicket_dirUse (s : State) (f : Wicket → Wicket) : (s.onWicket f).dirUse = s.dirUse := rfl
@[simp] theorem State.onWicket_victims (s : State) (f : Wicket → Wicket) : (s.onWicket f).victims = s.victims := rfl
@[simp] theorem State.onWicket_txns (s : State) (f : Wicket → Wicket) : (s.onWicket f).txns = s.txns := rfl
@[simp] theorem State.onWicket_homeq (s : State) (f : Wicket → Wicket) : (s.onWicket f).homeq = s.homeq := rfl
@[simp] theorem State.onWicket_fills (s : State) (f : Wicket → Wicket) : (s.onWicket f).fills = s.fills := rfl
@[simp] theorem State.onWicket_ownc (s : State) (f : Wicket → Wicket) : (s.onWicket f).ownc = s.ownc := rfl
@[simp] theorem State.onWicket_keys (s : State) (f : Wicket → Wicket) : (s.onWicket f).keys = s.keys := rfl
@[simp] theorem State.onWicket_mcs (s : State) (f : Wicket → Wicket) : (s.onWicket f).mcs = s.mcs := rfl
@[simp] theorem State.onWicket_vlts (s : State) (f : Wicket → Wicket) : (s.onWicket f).vlts = s.vlts := rfl
@[simp] theorem State.onWicket_links (s : State) (f : Wicket → Wicket) : (s.onWicket f).links = s.links := rfl
@[simp] theorem State.onWicket_rings (s : State) (f : Wicket → Wicket) : (s.onWicket f).rings = s.rings := rfl
@[simp] theorem State.onWicket_heldReqs (s : State) (f : Wicket → Wicket) : (s.onWicket f).heldReqs = s.heldReqs := rfl
@[simp] theorem State.onWicket_map (s : State) (f : Wicket → Wicket) : (s.onWicket f).map = s.map := rfl
@[simp] theorem State.onWicket_power (s : State) (f : Wicket → Wicket) : (s.onWicket f).power = s.power := rfl
@[simp] theorem State.onWicket_irt (s : State) (f : Wicket → Wicket) : (s.onWicket f).irt = s.irt := rfl
@[simp] theorem State.onWicket_pm (s : State) (f : Wicket → Wicket) : (s.onWicket f).pm = s.pm := rfl
@[simp] theorem State.onWicket_rcs (s : State) (f : Wicket → Wicket) : (s.onWicket f).rcs = s.rcs := rfl
@[simp] theorem State.onWicket_iommus (s : State) (f : Wicket → Wicket) : (s.onWicket f).iommus = s.iommus := rfl
@[simp] theorem State.onWicket_lanes (s : State) (f : Wicket → Wicket) : (s.onWicket f).lanes = s.lanes := rfl
@[simp] theorem State.onWicket_vis (s : State) (f : Wicket → Wicket) : (s.onWicket f).vis = s.vis := rfl

/-! ### State.onRecord -/

@[simp] theorem State.onRecord_pending (s : State) (f : BootRecord → BootRecord) : (s.onRecord f).pending = s.pending := rfl
@[simp] theorem State.onRecord_free (s : State) (f : BootRecord → BootRecord) : (s.onRecord f).free = s.free := rfl
@[simp] theorem State.onRecord_stalled (s : State) (f : BootRecord → BootRecord) : (s.onRecord f).stalled = s.stalled := rfl
@[simp] theorem State.onRecord_qos (s : State) (f : BootRecord → BootRecord) : (s.onRecord f).qos = s.qos := rfl
@[simp] theorem State.onRecord_cores (s : State) (f : BootRecord → BootRecord) : (s.onRecord f).cores = s.cores := rfl
@[simp] theorem State.onRecord_regs (s : State) (f : BootRecord → BootRecord) : (s.onRecord f).regs = s.regs := rfl
@[simp] theorem State.onRecord_mem (s : State) (f : BootRecord → BootRecord) : (s.onRecord f).mem = s.mem := rfl
@[simp] theorem State.onRecord_notes (s : State) (f : BootRecord → BootRecord) : (s.onRecord f).notes = s.notes := rfl
@[simp] theorem State.onRecord_llc (s : State) (f : BootRecord → BootRecord) : (s.onRecord f).llc = s.llc := rfl
@[simp] theorem State.onRecord_dirs (s : State) (f : BootRecord → BootRecord) : (s.onRecord f).dirs = s.dirs := rfl
@[simp] theorem State.onRecord_dirUse (s : State) (f : BootRecord → BootRecord) : (s.onRecord f).dirUse = s.dirUse := rfl
@[simp] theorem State.onRecord_victims (s : State) (f : BootRecord → BootRecord) : (s.onRecord f).victims = s.victims := rfl
@[simp] theorem State.onRecord_txns (s : State) (f : BootRecord → BootRecord) : (s.onRecord f).txns = s.txns := rfl
@[simp] theorem State.onRecord_homeq (s : State) (f : BootRecord → BootRecord) : (s.onRecord f).homeq = s.homeq := rfl
@[simp] theorem State.onRecord_fills (s : State) (f : BootRecord → BootRecord) : (s.onRecord f).fills = s.fills := rfl
@[simp] theorem State.onRecord_ownc (s : State) (f : BootRecord → BootRecord) : (s.onRecord f).ownc = s.ownc := rfl
@[simp] theorem State.onRecord_keys (s : State) (f : BootRecord → BootRecord) : (s.onRecord f).keys = s.keys := rfl
@[simp] theorem State.onRecord_mcs (s : State) (f : BootRecord → BootRecord) : (s.onRecord f).mcs = s.mcs := rfl
@[simp] theorem State.onRecord_vlts (s : State) (f : BootRecord → BootRecord) : (s.onRecord f).vlts = s.vlts := rfl
@[simp] theorem State.onRecord_links (s : State) (f : BootRecord → BootRecord) : (s.onRecord f).links = s.links := rfl
@[simp] theorem State.onRecord_rings (s : State) (f : BootRecord → BootRecord) : (s.onRecord f).rings = s.rings := rfl
@[simp] theorem State.onRecord_heldReqs (s : State) (f : BootRecord → BootRecord) : (s.onRecord f).heldReqs = s.heldReqs := rfl
@[simp] theorem State.onRecord_map (s : State) (f : BootRecord → BootRecord) : (s.onRecord f).map = s.map := rfl
@[simp] theorem State.onRecord_power (s : State) (f : BootRecord → BootRecord) : (s.onRecord f).power = s.power := rfl
@[simp] theorem State.onRecord_irt (s : State) (f : BootRecord → BootRecord) : (s.onRecord f).irt = s.irt := rfl
@[simp] theorem State.onRecord_pm (s : State) (f : BootRecord → BootRecord) : (s.onRecord f).pm = s.pm := rfl
@[simp] theorem State.onRecord_rcs (s : State) (f : BootRecord → BootRecord) : (s.onRecord f).rcs = s.rcs := rfl
@[simp] theorem State.onRecord_iommus (s : State) (f : BootRecord → BootRecord) : (s.onRecord f).iommus = s.iommus := rfl
@[simp] theorem State.onRecord_lanes (s : State) (f : BootRecord → BootRecord) : (s.onRecord f).lanes = s.lanes := rfl
@[simp] theorem State.onRecord_vis (s : State) (f : BootRecord → BootRecord) : (s.onRecord f).vis = s.vis := rfl

/-! ### State.onDraft -/

@[simp] theorem State.onDraft_pending (s : State) (f : BootRecord → BootRecord) : (s.onDraft f).pending = s.pending := rfl
@[simp] theorem State.onDraft_free (s : State) (f : BootRecord → BootRecord) : (s.onDraft f).free = s.free := rfl
@[simp] theorem State.onDraft_stalled (s : State) (f : BootRecord → BootRecord) : (s.onDraft f).stalled = s.stalled := rfl
@[simp] theorem State.onDraft_qos (s : State) (f : BootRecord → BootRecord) : (s.onDraft f).qos = s.qos := rfl
@[simp] theorem State.onDraft_cores (s : State) (f : BootRecord → BootRecord) : (s.onDraft f).cores = s.cores := rfl
@[simp] theorem State.onDraft_regs (s : State) (f : BootRecord → BootRecord) : (s.onDraft f).regs = s.regs := rfl
@[simp] theorem State.onDraft_mem (s : State) (f : BootRecord → BootRecord) : (s.onDraft f).mem = s.mem := rfl
@[simp] theorem State.onDraft_notes (s : State) (f : BootRecord → BootRecord) : (s.onDraft f).notes = s.notes := rfl
@[simp] theorem State.onDraft_llc (s : State) (f : BootRecord → BootRecord) : (s.onDraft f).llc = s.llc := rfl
@[simp] theorem State.onDraft_dirs (s : State) (f : BootRecord → BootRecord) : (s.onDraft f).dirs = s.dirs := rfl
@[simp] theorem State.onDraft_dirUse (s : State) (f : BootRecord → BootRecord) : (s.onDraft f).dirUse = s.dirUse := rfl
@[simp] theorem State.onDraft_victims (s : State) (f : BootRecord → BootRecord) : (s.onDraft f).victims = s.victims := rfl
@[simp] theorem State.onDraft_txns (s : State) (f : BootRecord → BootRecord) : (s.onDraft f).txns = s.txns := rfl
@[simp] theorem State.onDraft_homeq (s : State) (f : BootRecord → BootRecord) : (s.onDraft f).homeq = s.homeq := rfl
@[simp] theorem State.onDraft_fills (s : State) (f : BootRecord → BootRecord) : (s.onDraft f).fills = s.fills := rfl
@[simp] theorem State.onDraft_ownc (s : State) (f : BootRecord → BootRecord) : (s.onDraft f).ownc = s.ownc := rfl
@[simp] theorem State.onDraft_keys (s : State) (f : BootRecord → BootRecord) : (s.onDraft f).keys = s.keys := rfl
@[simp] theorem State.onDraft_mcs (s : State) (f : BootRecord → BootRecord) : (s.onDraft f).mcs = s.mcs := rfl
@[simp] theorem State.onDraft_vlts (s : State) (f : BootRecord → BootRecord) : (s.onDraft f).vlts = s.vlts := rfl
@[simp] theorem State.onDraft_links (s : State) (f : BootRecord → BootRecord) : (s.onDraft f).links = s.links := rfl
@[simp] theorem State.onDraft_rings (s : State) (f : BootRecord → BootRecord) : (s.onDraft f).rings = s.rings := rfl
@[simp] theorem State.onDraft_heldReqs (s : State) (f : BootRecord → BootRecord) : (s.onDraft f).heldReqs = s.heldReqs := rfl
@[simp] theorem State.onDraft_map (s : State) (f : BootRecord → BootRecord) : (s.onDraft f).map = s.map := rfl
@[simp] theorem State.onDraft_power (s : State) (f : BootRecord → BootRecord) : (s.onDraft f).power = s.power := rfl
@[simp] theorem State.onDraft_irt (s : State) (f : BootRecord → BootRecord) : (s.onDraft f).irt = s.irt := rfl
@[simp] theorem State.onDraft_pm (s : State) (f : BootRecord → BootRecord) : (s.onDraft f).pm = s.pm := rfl
@[simp] theorem State.onDraft_rcs (s : State) (f : BootRecord → BootRecord) : (s.onDraft f).rcs = s.rcs := rfl
@[simp] theorem State.onDraft_iommus (s : State) (f : BootRecord → BootRecord) : (s.onDraft f).iommus = s.iommus := rfl
@[simp] theorem State.onDraft_lanes (s : State) (f : BootRecord → BootRecord) : (s.onDraft f).lanes = s.lanes := rfl
@[simp] theorem State.onDraft_vis (s : State) (f : BootRecord → BootRecord) : (s.onDraft f).vis = s.vis := rfl

/-! ### What each update writes -/

@[simp] theorem State.setCore_cores (s : State) (c : Nat) (k : Core) : (s.setCore c k).cores = put s.cores c k := rfl
@[simp] theorem State.setReg_regs (s : State) (i : RegId) (n k j : Nat) (v : W64) :
    (s.setReg i n k j v).regs = put s.regs (regAddr i n k j) v := rfl
@[simp] theorem State.onCore_cores (s : State) (c : Nat) (f : Core → Core) : (s.onCore c f).cores = put s.cores c (f (s.core c)) := rfl
@[simp] theorem State.setMc_mcs (s : State) (n : Nat) (m : Mc) : (s.setMc n m).mcs = put s.mcs n m := rfl
@[simp] theorem State.setNote_notes (s : State) (l : Nat) (x : LineNote) : (s.setNote l x).notes = store LineNote.fresh s.notes l x := rfl
@[simp] theorem State.setRc_rcs (s : State) (k : Nat) (r : Rc) : (s.setRc k r).rcs = put s.rcs k r := rfl
@[simp] theorem State.onRecord_wicket (s : State) (f : BootRecord → BootRecord) :
    (s.onRecord f).wicket = { s.wicket with record := s.wicket.record.map f } := rfl
@[simp] theorem State.onDraft_wicket (s : State) (f : BootRecord → BootRecord) :
    (s.onDraft f).wicket = { s.wicket with draft := s.wicket.draft.map f } := rfl
@[simp] theorem State.useFree_free (s : State) : s.useFree.free = s.free + 1 := rfl
@[simp] theorem State.onWicket_wicket (s : State) (f : Wicket → Wicket) : (s.onWicket f).wicket = f s.wicket := rfl

/-! ### Results -/

/-- A command that completes answers the state it makes. -/
@[simp] theorem done_eq (s : State) : done s = .next s := rfl
/-- So does one of a unit that runs, where no request had to wait. -/
theorem doneOr_eq {s t : State} (h : t.stalled = false) (f : s.frozen = false) : doneOr s t = .next t := by simp [doneOr, h, f]
theorem doneRun_eq {s t : State} (f : s.frozen = false) : doneRun s t = .next t := by simp [doneRun, f]
/-- All that either can answer: the state made, or the state before. -/
theorem doneOr_cases (s t : State) : (doneOr s t = .next t ∧ t.stalled = false ∧ s.frozen = false) ∨
    (doneOr s t = .next s ∧ (t.stalled = true ∨ s.frozen = true)) := by
  by_cases h : t.stalled = true ∨ s.frozen = true
  · exact .inr ⟨by rw [doneOr, if_pos h], h⟩
  · refine .inl ⟨by rw [doneOr, if_neg h], ?_⟩
    simpa using h
theorem doneRun_cases (s t : State) : (doneRun s t = .next t ∧ s.frozen = false) ∨ (doneRun s t = .next s ∧ s.frozen = true) := by
  cases h : s.frozen <;> simp [doneRun, h]

end Sys2Proof.Machine
end

