-- ==== Sys2Proof/Tests/Slice0.lean ====
section
/-! SUPPORT. Small checks of the model: what WellFormed refuses, and for each statement with hypotheses concrete terms that meet them
together, clause by clause. -/

namespace Sys2Proof.Machine

set_option Elab.async false

/-! ## Ill-formed commands -/

theorem test_ill_formed_unassigned : Instr.wellFormed (.unassignedEncoding 0 0x02000000#32) = false := by decide
theorem test_ill_formed_config_width : Instr.wellFormed (.configAccess (.core 0) 1 0 false .w64 0) = false := by decide

/-! ## Small states -/

/-- A part with its supplies and clocks. -/
def tp : Power := { Power.reset with clocks := true, pll := true, vaon := true, pwrgood := true }
/-- A started core at the reset vector, PL3 of the secure world. -/
def tk : Core := { Core.reset with started := true }
/-- That core at level `pl`, of the secure world or not. -/
def tkAt (pl : Nat) (sec : Bool) : Core := { tk with status := BitVec.ofNat 64 (pl + 4 * b2n sec) }
/-- The part with core 0 as given. -/
def ts (k : Core) : State := { State.reset with power := tp, cores := [(0, k)] }
/-- The hypotheses of `Ready`, as a check. -/
def readyB (s : State) (c : Nat) (i : Instr) : Bool :=
  s.active c && !preempted s c i && !waitBarred s c i && (checks s c i).2.isNone && !(fetched s c i).stalled

theorem ready_of {s : State} {c : Nat} {i : Instr} (h : readyB s c i = true) : Ready s c i := by
  simp only [readyB, Bool.and_eq_true, Bool.not_eq_true', Option.isNone_iff_eq_none] at h
  exact ⟨h.1.1.1.1, h.1.1.1.2, h.1.1.2, h.1.2, h.2⟩

/-! ## Queue, registers, integer instructions -/

theorem test_wit_IdleStepCountsTime : (ts tk).pending = [] ∧ (ts tk).power.vaon = true ∧ State.reset.pending = [] ∧ State.reset.power.vaon = false := by
  decide +kernel

theorem test_wit_IntegerInstructionsComplete :
    ∃ v, intOf (.addi 0 ⟨31, 2, 0x4000⟩) = some (0, 31, v) ∧ Ready (ts tk) 0 (.addi 0 ⟨31, 2, 0x4000⟩) :=
  ⟨_, rfl, ready_of (by decide +kernel)⟩

/-- A core with a dividend and a divisor at the ends of their ranges. -/
def tDiv (b : W64) : State := ts ((tk.wg 2 (BitVec.intMin 64)).wg 3 b)
theorem test_wit_DivisionCorners_zero : Ready (tDiv 0) 0 (.div 0 .rem ⟨1, 2, 3⟩) ∧
    ((fetched (tDiv 0) 0 (.div 0 .rem ⟨1, 2, 3⟩)).core 0).gr 3 = 0 := ⟨ready_of (by decide +kernel), by decide +kernel⟩
theorem test_wit_DivisionCorners_min : Ready (tDiv (-1)) 0 (.div 0 .div ⟨1, 2, 3⟩) ∧
    ((fetched (tDiv (-1)) 0 (.div 0 .div ⟨1, 2, 3⟩)).core 0).gr 2 = BitVec.intMin 64 ∧
    ((fetched (tDiv (-1)) 0 (.div 0 .div ⟨1, 2, 3⟩)).core 0).gr 3 = -1 := ⟨ready_of (by decide +kernel), by decide +kernel⟩
theorem test_wit_DivisionCorners_rem : Ready (tDiv (-1)) 0 (.div 0 .rem ⟨1, 2, 3⟩) := ready_of (by decide +kernel)

/-! ## Loads, stores, atomics -/

/-- A core whose g5 holds an address in the vault, with the line there in its L2, in state M. -/
def tMem (addr : W64) : State := ts { tk.wg 5 addr with l2 := [(0x380000004000, ⟨.m, ⟨0x1122, 0, 0, 0, 0⟩, true, false, false, 0, 0, false⟩)] }
/-- The load of `n` bytes that instruction `i` makes answers a value. -/
def loads (s : State) (i : Instr) (va : W64) (n : Nat) (acq : Bool) : Bool :=
  match load (if acq then drainThrough (fetched s 0 i) 0 (fun e => e.rel) else fetched s 0 i) 0 va .load n with
  | (w, .val _) => !w.stalled
  | _ => false
theorem test_wit_LoadsComplete : Ready (tMem 0xE00000010003F) 0 (.ldB 0 ⟨7, 5, 0⟩) ∧
    loads (tMem 0xE00000010003F) (.ldB 0 ⟨7, 5, 0⟩) 0xE00000010003F 1 false = true := ⟨ready_of (by decide +kernel), by decide +kernel⟩
theorem test_wit_LoadsComplete_acquire : Ready (tMem 0xE000000100038) 0 (.lda 0 .w64 ⟨7, 5, 0⟩) ∧
    (0xE000000100038 : W64).toNat % 8 = 0 ∧
    loads (tMem 0xE000000100038) (.lda 0 .w64 ⟨7, 5, 0⟩) 0xE000000100038 8 true = true := ⟨ready_of (by decide +kernel), by decide +kernel⟩

theorem test_wit_LoadHitsOwnCopy : (match translate (tMem 0) 0 0xE000000100038 .load true with
    | (u, .ok x) => (regionAt x.pa).memory && decide (x.mt = .wb) && x.pa % 64 == 56 && (u.core 0).sb.all (fun e => !e.overlaps x.pa 8) &&
        (match look (u.core 0).l2 (x.pa / 64) with
          | some y => y.c.one == 0 && y.c.two == 0 && y.oneD == 0 && y.twoD == 0 && !y.badI && y.c.poison == 0
          | none => false) && !tableLocked u
    | _ => false) = true := by decide +kernel

/-- A store of `n` bytes at `va` is accepted. -/
def stores (u : State) (va : W64) (n : Nat) (rel : Bool) : Bool :=
  match storeTo u 0 va .store n 0xFF rel with
  | (w, .done) => !w.stalled
  | _ => false
theorem test_wit_StoresComplete : Ready (tMem 0xE00000010003F) 0 (.stB 0 ⟨7, 5, 0⟩) ∧
    stores (fetched (tMem 0xE00000010003F) 0 (.stB 0 ⟨7, 5, 0⟩)) 0xE00000010003F 1 false = true := ⟨ready_of (by decide +kernel), by decide +kernel⟩
theorem test_wit_StoresComplete_release : Ready (tMem 0xE000000100038) 0 (.stl 0 .w64 ⟨7, 5, 0⟩) ∧
    stores (fetched (tMem 0xE000000100038) 0 (.stl 0 .w64 ⟨7, 5, 0⟩)) 0xE000000100038 8 true = true :=
  ⟨ready_of (by decide +kernel), by decide +kernel⟩
theorem test_wit_StoresComplete_buffer : (match storePart (tMem 0) 0 0xE000000100038 .store true with
    | (u, .ok x) => decide (x.mt ≠ .devS) && decide (regionAt x.pa = .vault) && decide ((u.core 0).sb.length < 128)
    | _ => false) = true := by decide +kernel
theorem test_wit_StoresComplete_pair : (match storePart (tMem 0) 0 0xE00000010003F .store false with
    | (u, .ok x) => match storePart u 0 0xE000000100040 .store false with
      | (w, .ok y) => decide (x.mt ≠ .devS) && decide (y.mt ≠ .devS) && decide (regionAt x.pa = .vault) && decide (regionAt y.pa = .vault) &&
          decide ((w.core 0).sb.length < 127)
      | _ => false
    | _ => false) = true := by decide +kernel

/-- The identity mapping of stage 1 off gives a page of registers the type Device-S: a store to PKGCFG takes effect at once. -/
theorem test_wit_StoresComplete_device : (match storePart (tMem 0) 0 (BitVec.ofNat 64 (regAddr .lvPkgcfg 0 0 0)) .store true with
    | (_, .ok x) => decide (x.mt = .devS) && decide (x.pa = regAddr .lvPkgcfg 0 0 0)
    | _ => false) = true := by decide +kernel

/-- The state in which ST64 of v3 stores. -/
def tSt64 : State := (fetched (tMem 0xE000000100000) 0 (.st64 0 3 5 0)).onCore 0 (fun k => k.vqWait [3] [])
theorem test_wit_LineStoresComplete_st64 : Ready (tMem 0xE000000100000) 0 (.st64 0 3 5 0) ∧
    (match storeLine tSt64 0 0xE000000100000 .st64 0 .line with
      | (w, .done) => !w.stalled
      | _ => false) = true := ⟨ready_of (by decide +kernel), by decide +kernel⟩
theorem test_wit_LineStoresComplete_misaligned : Ready (tMem 0xE000000100020) 0 (.st64 0 3 5 0) ∧
    ((fetched (tMem 0xE000000100020) 0 (.st64 0 3 5 0)).core 0).gr 5 = 0xE000000100020 := ⟨ready_of (by decide +kernel), by decide +kernel⟩
theorem test_wit_LineStoresComplete_dcz : Ready (tMem 0xE00000010003F) 0 (.dcz 0 5) ∧
    (match storeLine (fetched (tMem 0xE00000010003F) 0 (.dcz 0 5)) 0 0xE000000100000 .dcz 0 .zero with
      | (w, .done) => !w.stalled
      | _ => false) = true := ⟨ready_of (by decide +kernel), by decide +kernel⟩

/-- What the atomic at g5 answers in state `u`. -/
def atomicRun (u : State) (posted : Bool) : Bool :=
  match atomicAt u 0 0xE000000100038 .add true false false posted 1 0 with
  | (w, .old _) => !w.stalled && !posted
  | (w, .posted) => !w.stalled && posted
  | _ => false
theorem test_wit_AtomicsComplete_old : Ready (tMem 0xE000000100038) 0 (.atAdd 0 ⟨7, 5, 6, true, false, false, false⟩) ∧
    atomicRun (fetched (tMem 0xE000000100038) 0 (.atAdd 0 ⟨7, 5, 6, true, false, false, false⟩)) false = true :=
  ⟨ready_of (by decide +kernel), by decide +kernel⟩
theorem test_wit_AtomicsComplete_posted : Ready (tMem 0xE000000100038) 0 (.atAdd 0 ⟨0, 5, 6, true, false, false, false⟩) ∧
    atomicRun (fetched (tMem 0xE000000100038) 0 (.atAdd 0 ⟨0, 5, 6, true, false, false, false⟩)) true = true :=
  ⟨ready_of (by decide +kernel), by decide +kernel⟩
theorem test_wit_AtomicsComplete_misaligned : Ready (tMem 0xE00000010003C) 0 (.atAdd 0 ⟨7, 5, 6, true, false, false, false⟩) :=
  ready_of (by decide +kernel)

/-- The core with a byte in its store buffer for the line it holds. -/
def tDrain : State := (storeTo (tMem 0) 0 0xE00000010003F .store 1 0xFF false).1
theorem test_wit_DrainWritesHeldLine : tDrain.power.clocks = true ∧ tDrain.stalled = false ∧ tableLocked tDrain = false ∧
    (match (tDrain.core 0).sb with
      | e :: _ => decide (e.kind = .bytes) && decide (e.mt = .wb) && (regionAt e.pa).memory && decide (e.pa % 64 + e.len ≤ 64) &&
          (match look (tDrain.core 0).l2 (e.pa / 64) with
            | some y => decide (y.st = .m) && y.l1d && y.c.one == 0 && y.c.two == 0 && y.oneD == 0 && y.twoD == 0 && !y.badI
            | none => false)
      | [] => false) = true := by decide +kernel

/-! ## Branches, control, control registers -/

theorem test_wit_BranchesComplete : branchOf (.beq 0 ⟨1, 2, true, true, 0x200⟩) = some (0, true, true, (0x200 : BitVec 10).signExtend 64, fun k => k.gr 1 = k.gr 2) ∧
    Ready (ts tk) 0 (.beq 0 ⟨1, 2, true, true, 0x200⟩) := ⟨rfl, ready_of (by decide +kernel)⟩
theorem test_wit_JumpsComplete_jal : Ready (ts tk) 0 (.jal 0 31 true 0x40000) := ready_of (by decide +kernel)
theorem test_wit_JumpsComplete_jalr : Ready (tMem 0xE000000100000) 0 (.jalr 0 5 5 true 4) ∧
    (((fetched (tMem 0xE000000100000) 0 (.jalr 0 5 5 true 4)).core 0).gr 5 + (4 : BitVec 13).signExtend 64).toNat % 4 = 0 :=
  ⟨ready_of (by decide +kernel), by decide +kernel⟩
theorem test_wit_JumpsComplete_misaligned : Ready (tMem 0xE000000100000) 0 (.jalr 0 5 5 true 1) ∧
    (((fetched (tMem 0xE000000100000) 0 (.jalr 0 5 5 true 1)).core 0).gr 5 + (1 : BitVec 13).signExtend 64).toNat % 4 ≠ 0 :=
  ⟨ready_of (by decide +kernel), by decide +kernel⟩

theorem test_wit_ControlAndOrderingComplete_ei : Ready (ts (tkAt 1 false)) 0 (.ei 0) ∧ 1 ≤ ((fetched (ts (tkAt 1 false)) 0 (.ei 0)).core 0).pl :=
  ⟨ready_of (by decide +kernel), by decide +kernel⟩
/-- PL3 with its third timer reached and interrupts disabled. -/
def tEi : State := { ts (tk.crPut 0x4A 1) with power := { tp with time := 5000 } }
/-- What EI, or DI, leaves before an interrupt is looked at. -/
def setsIe (s : State) (on : Bool) : State :=
  let u := fetched s 0 (if on then .ei 0 else .di 0)
  let k := (u.core 0).applyAll false
  (u.setCore 0 { k with status := setBit k.status 3 on }).retire 0
theorem test_wit_ControlAndOrderingComplete_interrupt : Ready tEi 0 (.ei 0) ∧ 1 ≤ ((fetched tEi 0 (.ei 0)).core 0).pl ∧ interruptReady (setsIe tEi true) 0 = true ∧
    Ready tEi 0 (.di 0) ∧ interruptReady (setsIe (ts tk) true) 0 = false := by
  refine ⟨ready_of ?_, ?_, ?_, ready_of ?_, ?_⟩ <;> decide +kernel
theorem test_wit_ControlAndOrderingComplete_fences : Ready tDrain 0 (.fenceI 0) ∧
    (drainAll (fetched tDrain 0 (.fenceI 0)) 0).stalled = false ∧ Ready tDrain 0 (.fence 0 true true true true) ∧
    (drainAll (fetched tDrain 0 (.fence 0 true true true true)) 0).stalled = false ∧ Ready (ts (tkAt 0 false)) 0 (.ctlsync 0) :=
  ⟨ready_of (by decide +kernel), by decide +kernel, ready_of (by decide +kernel), by decide +kernel, ready_of (by decide +kernel)⟩

theorem test_wit_TlbInvalidationComplete : xlinvOf (.xlinvSec 0 1 2 false) = some (0, .sec, 3, 1, 2, false) ∧ Ready tDrain 0 (.xlinvSec 0 1 2 false) ∧
    3 ≤ ((fetched tDrain 0 (.xlinvSec 0 1 2 false)).core 0).pl ∧ (drainAll (fetched tDrain 0 (.xlinvSec 0 1 2 false)) 0).stalled = false :=
  ⟨rfl, ready_of (by decide +kernel), by decide +kernel, by decide +kernel⟩
theorem test_wit_TlbInvalidationComplete_accept :
    ((ts { tk with inbox := [⟨.page, 0x5000, 0, true, 0⟩] }).core 0).inbox = [⟨.page, 0x5000, 0, true, 0⟩] ∧
    (ts { tk with inbox := [⟨.page, 0x5000, 0, true, 0⟩] }).frozen = false := by decide +kernel

theorem test_wit_ControlRegisterAccess_crr : Ready (ts tk) 0 (.crr 0 5 0x300) ∧ crLevel 0x300 = some 3 ∧
    crNeeds (fetched (ts tk) 0 (.crr 0 5 0x300)) 0 0x300 3 false = none := ⟨ready_of (by decide +kernel), by decide +kernel, by decide +kernel⟩
theorem test_wit_ControlRegisterAccess_unassigned : Ready (ts tk) 0 (.crr 0 5 0xFFF) ∧ crLevel 0xFFF = none ∧ Ready (ts tk) 0 (.crw 0 0xFFF 5) :=
  ⟨ready_of (by decide +kernel), by decide +kernel, ready_of (by decide +kernel)⟩
theorem test_wit_ControlRegisterAccess_level : Ready (ts (tkAt 1 true)) 0 (.crr 0 5 0x300) ∧
    crNeeds (fetched (ts (tkAt 1 true)) 0 (.crr 0 5 0x300)) 0 0x300 3 false = some 3 ∧ Ready (ts (tkAt 1 true)) 0 (.crw 0 0x300 5) ∧
    crNeeds (fetched (ts (tkAt 1 true)) 0 (.crw 0 0x300 5)) 0 0x300 3 true = some 3 :=
  ⟨ready_of (by decide +kernel), by decide +kernel, ready_of (by decide +kernel), by decide +kernel⟩
theorem test_wit_ControlRegisterAccess_crw : Ready (ts tk) 0 (.crw 0 0x300 5) ∧
    crNeeds (fetched (ts tk) 0 (.crw 0 0x300 5)) 0 0x300 3 true = none := ⟨ready_of (by decide +kernel), by decide +kernel⟩
theorem test_wit_ControlRegisterAccess_ieoi : Ready (ts tk) 0 (.ieoi 0 5) ∧ crLevel 0x44 = some 1 ∧
    crNeeds (fetched (ts tk) 0 (.ieoi 0 5)) 0 0x44 1 true = none ∧
    (endInterrupt ((fetched (ts tk) 0 (.ieoi 0 5)).onCore 0 (fun k => k.crWrite 0 0x44 0)) 0 0).stalled = false :=
  ⟨ready_of (by decide +kernel), by decide +kernel, by decide +kernel, by decide +kernel⟩
theorem test_wit_ControlRegisterAccess_vcpu : Ready (ts tk) 0 (.vcpuWrite 0 5) ∧ crLevel 0x45 = some 2 ∧
    crNeeds (fetched (ts tk) 0 (.vcpuWrite 0 5)) 0 0x45 2 true = none ∧
    (setResident ((fetched (ts tk) 0 (.vcpuWrite 0 5)).onCore 0 (fun k => k.crWrite 0 0x45 0)) 0 none).stalled = false :=
  ⟨ready_of (by decide +kernel), by decide +kernel, by decide +kernel, by decide +kernel⟩

theorem test_wit_ControlRegisterClasses : (crAt 0x02).map CrDef.cls = some .d ∧ (crAt 0x105).map CrDef.cls = some .s ∧ tk.pendD = [] ∧
    Ready (ts tk) 0 (.ctlsync 0) := ⟨by decide +kernel, by decide +kernel, rfl, ready_of (by decide +kernel)⟩

/-! ## Exceptions -/

theorem test_wit_CallsTakeExceptions_svc : Ready (ts (tkAt 0 false)) 0 (.svc 0 0xFFFF) ∧
    ((fetched (ts (tkAt 0 false)) 0 (.svc 0 0xFFFF)).core 0).pl = 0 ∧ Ready (ts tk) 0 (.svc 0 0xFFFF) ∧
    ((fetched (ts tk) 0 (.svc 0 0xFFFF)).core 0).pl ≠ 0 := ⟨ready_of (by decide +kernel), by decide +kernel, ready_of (by decide +kernel), by decide +kernel⟩
theorem test_wit_CallsTakeExceptions_hvc : Ready (ts (tkAt 1 false)) 0 (.hvc 0 1) ∧
    ((fetched (ts (tkAt 1 false)) 0 (.hvc 0 1)).core 0).secure = false ∧ 1 ≤ ((fetched (ts (tkAt 1 false)) 0 (.hvc 0 1)).core 0).pl ∧
    Ready (ts (tkAt 1 true)) 0 (.hvc 0 1) ∧ ((fetched (ts (tkAt 1 true)) 0 (.hvc 0 1)).core 0).secure = true ∧
    1 ≤ ((fetched (ts (tkAt 1 true)) 0 (.hvc 0 1)).core 0).pl := by
  refine ⟨ready_of ?_, ?_, ?_, ready_of ?_, ?_, ?_⟩ <;> decide +kernel
theorem test_wit_CallsTakeExceptions_gate : Ready (ts (tkAt 1 false)) 0 (.gate 0 0) ∧ 1 ≤ ((fetched (ts (tkAt 1 false)) 0 (.gate 0 0)).core 0).pl :=
  ⟨ready_of (by decide +kernel), by decide +kernel⟩
/-- The part with every debug enable. -/
def tDebug (k : Core) : State := (ts (k.crPut 0x318 0x1F)).setReg .ownDbgauth 0 0 0 0xF
theorem test_wit_CallsTakeExceptions_brk : Ready (ts tk) 0 (.brk 0 7) ∧ invasive (fetched (ts tk) 0 (.brk 0 7)) 0 = false ∧
    Ready (tDebug tk) 0 (.brk 0 7) ∧ invasive (fetched (tDebug tk) 0 (.brk 0 7)) 0 = true := by
  refine ⟨ready_of ?_, ?_, ready_of ?_, ?_⟩ <;> decide +kernel
theorem test_wit_CallsTakeExceptions_unassigned : (ts tk).active 0 = true ∧ (fetched (ts tk) 0 (.unassignedEncoding 0 0xFFFFFFFF)).stalled = false ∧
    assigned 0xFFFFFFFF = false ∧
    (fetch ((releaseWait (ts tk) 0).onCore 0 (fun k => { k.position.useCtx with vecStop := false })) 0).2 = none ∧
    preempted (ts tk) 0 (.unassignedEncoding 0 0xFFFFFFFF) = false := by
  refine ⟨?_, ?_, ?_, ?_, ?_⟩ <;> decide +kernel
theorem test_wit_PrivilegedInstructionsTrap : instrLevel (.xlinvSec 0 1 2 true) = some (0, 3) ∧ Ready (ts (tkAt 2 false)) 0 (.xlinvSec 0 1 2 true) ∧
    ((fetched (ts (tkAt 2 false)) 0 (.xlinvSec 0 1 2 true)).core 0).pl < 3 := ⟨rfl, ready_of (by decide +kernel), by decide +kernel⟩
theorem test_wit_PrivilegedInstructionsTrap_slot : Ready (ts { tk with slot := some 0 }) 0 (.eret 0) ∧ slotLevelled (.eret 0) = true ∧
    1 ≤ ((fetched (ts { tk with slot := some 0 }) 0 (.eret 0)).core 0).pl ∧ ((fetched (ts { tk with slot := some 0 }) 0 (.eret 0)).core 0).slot.isSome = true :=
  ⟨ready_of (by decide +kernel), by decide +kernel, by decide +kernel, by decide +kernel⟩
/-- A core about to fetch where nothing is. -/
def tLost : State := ts { tk with pc := 0x8000000000000 }
theorem test_wit_PrivilegedInstructionsTrap_fetch : tLost.active 0 = true ∧ preempted tLost 0 (.ei 0) = false ∧
    ((checks tLost 0 (.ei 0)).2.map (fun e => e.code != 0x20)) = some true ∧ (fetched tLost 0 (.ei 0)).stalled = false := by
  refine ⟨?_, ?_, ?_, ?_⟩ <;> decide +kernel

/-- PL3 with a saved status of PL1, secure or not. -/
def tSaved (sec : Bool) : State := ts (tk.crPut 0x300 (BitVec.ofNat 64 (1 + 4 * b2n sec + 32)))
/-- What ERET finds in its saved status. -/
def savedOf (s : State) (i : Instr) : Nat × W64 := let k := ((fetched s 0 i).core 0).applyAll false; (k.pl, k.crBase (crKey (0x100 * k.pl) k.secure))
theorem test_wit_ReturnsFromExceptions_eret : Ready (tSaved true) 0 (.eret 0) ∧ savedOf (tSaved true) (.eret 0) = (3, 37) ∧
    (((fetched (tSaved true) 0 (.eret 0)).core 0).applyAll false).secure = true := by
  refine ⟨ready_of ?_, ?_, ?_⟩ <;> decide +kernel
theorem test_wit_ReturnsFromExceptions_bad : Ready (tSaved false) 0 (.eret 0) ∧ savedOf (tSaved false) (.eret 0) = (3, 33) := by
  refine ⟨ready_of ?_, ?_⟩ <;> decide +kernel
theorem test_wit_ReturnsFromExceptions_user : Ready (ts (tkAt 0 false)) 0 (.eret 0) ∧ ((fetched (ts (tkAt 0 false)) 0 (.eret 0)).core 0).pl = 0 := by
  refine ⟨ready_of ?_, ?_⟩ <;> decide +kernel
theorem test_wit_ReturnsFromExceptions_gate : Ready (tSaved false) 0 (.gateRet 0) ∧ savedOf (tSaved false) (.gateRet 0) = (3, 33) ∧
    bitAt (33 : W64) 2 = false ∧ fld (33 : W64) 0 2 ≠ 3 := by
  refine ⟨ready_of ?_, ?_, ?_, ?_⟩ <;> decide +kernel

/-! ## Waiting, sleeping, debug -/

/-- A core whose first timer has been reached, or not, with g5 the deadline. -/
def tWait (on : Bool) (d : W64) : State :=
  let s := ts ((if on then tk.crPut 0x4A 1 else tk).wg 5 d)
  { s with power := { s.power with time := 5000 } }
theorem test_wit_WaitAndDebugComplete_wait : Ready (tWait false 4994) 0 (.wait 0 5) ∧ 1 ≤ ((fetched (tWait false 4994) 0 (.wait 0 5)).core 0).pl ∧
    ((fetched (tWait false 4994) 0 (.wait 0 5)).core 0).secure = true ∧ (4994 : W64).toNat ≤ (fetched (tWait false 4994) 0 (.wait 0 5)).coreTime := by
  refine ⟨ready_of ?_, ?_, ?_, ?_⟩ <;> decide +kernel
theorem test_wit_WaitAndDebugComplete_stays : Ready (tWait false 0) 0 (.wait 0 5) ∧ wakePending (fetched (tWait false 0) 0 (.wait 0 5)) 0 = false ∧
    ((fetched (tWait false 0) 0 (.wait 0 5)).core 0).gr 5 = 0 := by
  refine ⟨ready_of ?_, ?_, ?_⟩ <;> decide +kernel
theorem test_wit_WaitAndDebugComplete_end : (((tWait false 0).onCore 0 (fun k => { k with run := .waiting 4994 })).core 0).run = .waiting 4994 ∧
    (tWait false 0).power.clocks = true ∧ (4994 : W64).toNat ≤ (tWait false 0).coreTime := by decide +kernel
/-- A halted core. -/
def tHalted : State := tDebug { tk with run := .halted }
theorem test_wit_WaitAndDebugComplete_halt : (tDebug tk).active 0 = true ∧ invasive (tDebug tk) 0 = true ∧ (tHalted.core 0).run = .halted ∧
    tHalted.stalled = false ∧ tHalted.frozen = false := by decide +kernel
theorem test_wit_WaitAndDebugComplete_access :
    (regAddr .lvPkgcfg 0 0 0 + 1) % 2 ≠ 0 ∧ regAddr .lvPkgcfg 0 0 0 % 8 = 0 ∧ regionAt (regAddr .lvPkgcfg 0 0 0) = .regs ∧
    (regWrite tHalted (regAddr .lvPkgcfg 0 0 0) 8 5 { coreAttr tHalted 0 with priv := 7 }).stalled = false ∧
    (regRead tHalted (regAddr .lvPkgcfg 0 0 0) 8 { coreAttr tHalted 0 with priv := 7 }).1.stalled = false ∧
    (regionAt 0xE000000100000).memory = true ∧
    (homeWrite (chargeAccess tHalted 0 (0xE000000100000 / 64) (qosOf tHalted 0)) (0xE000000100000 / 64) true 1 5 (enables 0 8) 0).1.stalled = false := by
  refine ⟨?_, ?_, ?_, ?_, ?_, ?_, ?_⟩ <;> decide +kernel

/-- A part that lets a secure core sleep, or not. -/
def tSleep (en : Nat) : State := (ts tk).setReg .lvSleepen 0 0 0 (BitVec.ofNat 64 en)
theorem test_wit_SleepAndWakeComplete_refused : Ready (tSleep 0) 0 (.sleepClosed 0 7 none) ∧
    1 ≤ ((fetched (tSleep 0) 0 (.sleepClosed 0 7 none)).core 0).pl ∧ interruptReady (fetched (tSleep 0) 0 (.sleepClosed 0 7 none)) 0 = false ∧
    sleepRefuser (fetched (tSleep 0) 0 (.sleepClosed 0 7 none)) 0 2 = some 2 := by
  refine ⟨ready_of ?_, ?_, ?_, ?_⟩ <;> decide +kernel
theorem refuser_none {s : State} {c level : Nat} (a : askedState s c level = level) (n : level ≤ 2) (b : (s.core c).secure = true)
    (e : (s.regF .lvSleepen 0 0 0 8 3).testBit level = true) (h : Config.firmwareRefuses s.free = false) : sleepRefuser s c level = none := by
  have n' : ¬ 3 ≤ level := by omega
  have m : level ≠ 4 := by omega
  simp [sleepRefuser, a, b, e, h, n', m]
/-- Firmware's policy (log 15) is the one hypothesis that no evaluation settles. -/
theorem test_wit_SleepAndWakeComplete_enters (h : Config.firmwareRefuses (fetched (tSleep 0x707) 0 (.sleepClosed 0 7 none)).free = false) :
    sleepRefuser (fetched (tSleep 0x707) 0 (.sleepClosed 0 7 none)) 0 2 = none ∧ Ready (tSleep 0x707) 0 (.sleepClosed 0 7 none) ∧
    wakePending (fetched (tSleep 0x707) 0 (.sleepClosed 0 7 none)).useFree 0 = false ∧
    askedState (fetched (tSleep 0x707) 0 (.sleepClosed 0 7 none)) 0 2 = 2 ∧
    (entrySteps (fetched (tSleep 0x707) 0 (.sleepClosed 0 7 none)).useFree 0 2 2).stalled = false := by
  refine ⟨?_, ready_of ?_, ?_, ?_, ?_⟩
  · exact refuser_none (by decide +kernel) (by decide) (by decide +kernel) (by decide +kernel) h
  all_goals decide +kernel
/-- A core with a local timer that has been reached and no mask. -/
def tWake (r : Run) : State :=
  let s := ts { tk.crPut 0x4A 1 with run := r }
  { s with power := { s.power with time := 5000 } }
theorem test_wit_SleepAndWakeComplete_abort : ((tWake (.entering 2 3 7)).core 0).run = .entering 2 3 7 ∧ wakePending (tWake (.entering 2 3 7)) 0 = true ∧
    (tWake (.entering 2 3 7)).frozen = false ∧ (undoEntry (tWake (.entering 2 3 7)) 0 3).stalled = false := by decide +kernel
theorem test_wit_SleepAndWakeComplete_wake : ((tWake (.closed 7)).core 0).run = .closed 7 ∧ ((tWake (.closed 7)).core 0).started = true ∧
    wakePending (tWake (.closed 7)) 0 = true ∧ (tWake (.closed 7)).power.clocks = true := by decide +kernel

/-! ## Vector and floating-point instructions -/

/-- A core with a vector configuration and length. -/
def tv (cfg vl : Nat) : State := ts (((tk.crPut 4 (BitVec.ofNat 64 cfg)).crPut 5 (BitVec.ofNat 64 vl)).wg 5 0xE000000100000)
/-- A masked instruction on v1, v2 and v3. -/
def tf : VF := ⟨1, 2, 3, true, 0, false, none⟩
/-- The same with fields that an instruction leaves unused. -/
def tf2 : VF := ⟨1, 2, 0, true, 0, false, none⟩
def tf1 : VF := ⟨1, 0, 0, true, 0, false, none⟩
/-- What the vector statements ask of the configuration. -/
def vecMet (s : State) (i : Instr) (p : VCtx → Bool) : Bool := readyB s 0 i && p (vctx (fetched s 0 i) 0) && (vctx (fetched s 0 i) 0).vl != 0
/-- No trap is enabled in an environment. -/
def noTraps (s : State) (i : Instr) (key : Nat) : Bool := envTe ((fetched s 0 i).core 0) key == 0

theorem test_wit_VconfCompletes : Ready (ts tk) 0 (.vconf 0 1 2 0x7F) ∧ Ready (ts tk) 0 (.vconfMax 0 1 0x7F) ∧ Ready (ts tk) 0 (.vconfKeep 0 1 0x7F) :=
  ⟨ready_of (by decide +kernel), ready_of (by decide +kernel), ready_of (by decide +kernel)⟩
theorem test_wit_VectorIntegerCompletes : (vintOf (.vadd 0 tf)).isSome = true ∧
    vecMet (tv 3 8) (.vadd 0 tf) (fun x => vGroups x tf true && x.vl == x.vlmax) = true := by decide +kernel
theorem test_wit_VectorMovesComplete : vecMet (tv 3 8) (.vblend 0 tf) (fun x => vGroups x tf true) = true ∧
    vecMet (tv 3 8) (.vindex 0 tf1) (fun x => x.groups [tf1.vd]) = true ∧ vecMet (tv 3 8) (.vinsert 0 tf2) (fun x => x.groups [tf2.vd]) = true := by
  decide +kernel
theorem test_wit_VectorMovesComplete_general : tf2.stop = none ∧ readyB (tv 3 8) 0 (.mskCount 0 tf2) = true ∧ readyB (tv 3 8) 0 (.mskFirst 0 tf2) = true ∧
    vecMet (tv 3 8) (.vextract 0 { tf2 with m := false }) (fun x => x.groups [tf2.va]) = true := by decide +kernel
/-- The same where VL is 0. -/
def vecNone (i : Instr) (p : VCtx → Bool) : Bool :=
  readyB (tv 3 0) 0 i && p (vctx (fetched (tv 3 0) 0 i) 0) && (vctx (fetched (tv 3 0) 0 i) 0).vl == 0
theorem test_wit_Vector_none : vecNone (.vadd 0 tf) (fun x => vGroups x tf true) = true ∧ vecNone (.vblend 0 tf) (fun x => vGroups x tf true) = true ∧
    vecNone (.vindex 0 tf1) (fun x => x.groups [tf1.vd]) = true ∧ vecNone (.vinsert 0 tf2) (fun x => x.groups [tf2.vd]) = true ∧
    vecNone (.vcmpEq 0 tf) (fun x => vGroups x tf false) = true ∧ vecNone (.mskXor 0 tf) (fun _ => true) = true ∧
    vecNone (.vfeq 0 tf) (fun x => x.fmt.isSome && vfGroups x tf false) = true ∧ vecNone (.deq 0 true tf) (fun x => decOk x true false tf) = true := by
  refine ⟨?_, ?_, ?_, ?_, ?_, ?_, ?_, ?_⟩ <;> decide +kernel
theorem test_wit_Vector_none_more : vecNone (.vprefix 0 tf2) (fun x => x.groups [tf2.vd]) = true ∧
    vecNone (.vshiftup 0 tf) (fun x => x.groups [tf.vd, tf.va]) = true ∧ vecNone (.vperm 0 tf) (fun x => x.groups [tf.vd, tf.va] && x.groups [tf.vb]) = true ∧
    vecNone (.vpack 0 { tf with m := false }) (fun x => x.groups [tf.vd, tf.va]) = true ∧ vecNone (.vredAdd 0 tf) (fun x => x.groups [tf.vd, tf.va, tf.vb]) = true ∧
    vecNone (.vfredOadd 0 tf) (fun x => x.fmt.isSome && x.groups [tf.vd, tf.va, tf.vb]) = true ∧
    vecNone (.vfadd 0 tf) (fun x => x.fmt.isSome && vfGroups x tf true) = true ∧ vecNone (.dadd 0 true tf) (fun x => decOk x true true tf) = true ∧
    vecNone (.vclmul 0 tf) (fun x => x.sew == 64 && vGroups x tf true) = true := by
  refine ⟨?_, ?_, ?_, ?_, ?_, ?_, ?_, ?_, ?_⟩ <;> decide +kernel
theorem test_wit_Vector_none_32 : (let s := tv 2 0
    let i : Instr := .vdot4Ss 0 tf
    readyB s 0 i && (vctx (fetched s 0 i) 0).sew == 32 && (vctx (fetched s 0 i) 0).vl == 0 && (vctx (fetched s 0 i) 0).groups [tf.vd, tf.va, tf.vb]) = true := by
  decide +kernel
theorem test_wit_VectorMaskResultsComplete : vecMet (tv 0 64) (.vcmpEq 0 tf) (fun x => vGroups x tf false) = true ∧
    vecMet (tv 0 64) (.mskXor 0 tf) (fun _ => true) = true := by decide +kernel
theorem test_wit_VectorMaskResultsComplete_float : vecMet (tv 3 8) (.vfeq 0 tf) (fun x => x.fmt.isSome && vfGroups x tf false) = true ∧
    noTraps (tv 3 8) (.vfeq 0 tf) fenvKey = true ∧ vecMet (tv 3 4) (.deq 0 true tf) (fun x => decOk x true false tf) = true ∧
    noTraps (tv 3 4) (.deq 0 true tf) drmKey = true := by decide +kernel
theorem test_wit_VectorPermutesComplete : vecMet (tv 3 8) (.vprefix 0 tf2) (fun x => x.groups [tf2.vd]) = true ∧
    vecMet (tv 3 8) (.vshiftup 0 tf) (fun x => x.groups [tf.vd, tf.va]) = true ∧ vecMet (tv 3 8) (.vshiftdn 0 tf) (fun x => x.groups [tf.vd, tf.va]) = true ∧
    vecMet (tv 3 8) (.vperm 0 tf) (fun x => x.groups [tf.vd, tf.va] && x.groups [tf.vb]) = true ∧
    vecMet (tv 3 8) (.vpack 0 { tf with m := false }) (fun x => x.groups [tf.vd, tf.va]) = true ∧ tf.vd ≠ tf.va ∧ tf.vd ≠ tf.vb := by decide +kernel
theorem test_wit_ReductionsComplete : vecMet (tv 3 8) (.vredAdd 0 tf) (fun x => x.groups [tf.vd, tf.va, tf.vb]) = true ∧
    vecMet (tv 3 8) (.vfredOadd 0 tf) (fun x => x.fmt.isSome && x.groups [tf.vd, tf.va, tf.vb]) = true ∧ noTraps (tv 3 8) (.vfredOadd 0 tf) fenvKey = true ∧
    vecMet (tv 2 16) (.vdot4Ss 0 tf) (fun x => x.sew == 32 && x.groups [tf.vd, tf.va, tf.vb]) = true := by decide +kernel
theorem test_wit_VectorFloatCompletes : vecMet (tv 3 8) (.vfadd 0 tf) (fun x => x.fmt.isSome && vfGroups x tf true) = true ∧
    noTraps (tv 3 8) (.vfadd 0 tf) fenvKey = true ∧ vecMet (tv 3 4) (.dadd 0 true tf) (fun x => decOk x true true tf) = true ∧
    noTraps (tv 3 4) (.dadd 0 true tf) drmKey = true := by decide +kernel

/-- A core with the division-by-zero trap enabled, and an infinite quotient to make. -/
def tTrap : State := ts ((tk.crPut 2 0xF8).wv 2 0x3FF0000000000000)
theorem test_wit_ScalarFloatCompletes : readyB (ts tk) 0 (.feq 0 .fp64 ⟨1, 2, 3⟩) = true ∧ noTraps (ts tk) (.feq 0 .fp64 ⟨1, 2, 3⟩) fenvKey = true ∧
    readyB tTrap 0 (.scalarFp 0 .fp64 .div ⟨1, 2, 3⟩) = true ∧
    (let u := fetched tTrap 0 (.scalarFp 0 .fp64 .div ⟨1, 2, 3⟩)
     trapped (fpDiv (fmtOf .fp64) (envRm (u.core 0) fenvKey) 0x3FF0000000000000 0).2 (envTe (u.core 0) fenvKey)) = true := by
  decide +kernel
theorem test_wit_ScalarFloatCompletes_decimal : readyB (ts tk) 0 (.scalarDecimal 0 true .add ⟨1, 2, 3⟩) = true ∧
    noTraps (ts tk) (.scalarDecimal 0 true .add ⟨1, 2, 3⟩) drmKey = true ∧ readyB (ts tk) 0 (.fmvFX 0 .fp16 1 2) = true ∧
    readyB (ts tk) 0 (.fmvXF 0 .fp16 1 2) = true := by decide +kernel
theorem test_wit_VectorCryptoCompletes : vecMet (tv 3 8) (.vaesenc 0 ⟨1, 0, 3, false, 0, false, none⟩) (fun x => x.groups [1, 3]) = true ∧
    vecMet (tv 2 16) (.vsha256Sig0 0 ⟨1, 2, 0, true, 0, false, none⟩) (fun x => x.sew == 32 && vGroups x ⟨1, 2, 0, true, 0, false, none⟩ true) = true ∧
    vecMet (tv 3 8) (.vclmul 0 tf) (fun x => x.sew == 64 && vGroups x tf true) = true ∧
    readyB (tv 3 8) 0 (.vsha256Rnd2 0 ⟨4, 3, 0, false, 0, false, none⟩) = true := by decide +kernel

/-- A vector memory instruction at g5, all of whose elements pass. -/
def vmemMet (i : Instr) (f : VM) (mode : VMode) (st : Bool) : Bool :=
  let s := tv 3 8
  let u := fetched s 0 i
  let k := u.core 0
  let x := vctx u 0
  let q := wideMark (u.onCore 0 (fun k => k.vqWait (groupRegs f.vd.toNat 8 ++ groupRegs f.rb.toNat 8) [f.msk.toNat])) 0 x.g
  let used := (span x.elem x.vl).filter (k.selects f.m f.msk)
  vecMet s i (fun x => vmemOk x f mode st) && (match firstDevice 0 (elemAddr k x f mode) (if st then .vstore else .vload) used q with
    | (p, none) =>
      if st then (match storeElems 0 (elemAddr k x f mode) (x.sew / 8) (fun e => k.velem x.sew f.vd.toNat e)
          (fun e => decide (mode = .unit) && wholeLine (elemAddr k x f mode) (x.sew / 8) used e) 0 used p with
        | (w, none) => !w.stalled
        | _ => false)
      else (match loadElems 0 (elemAddr k x f mode) (x.sew / 8) used p [] with
        | (w, _, none) => !w.stalled
        | _ => false)
    | _ => false)
/-- An unmasked access of v1 at g5. -/
def tm : VM := ⟨1, 5, 0, false, 0, 0, none⟩
theorem test_wit_VectorMemoryCompletes : vmemOf (.vld 0 tm) = some (0, tm, .unit, false) ∧ vmemMet (.vld 0 tm) tm .unit false = true ∧
    vmemOf (.vst 0 tm) = some (0, tm, .unit, true) ∧ vmemMet (.vst 0 tm) tm .unit true = true ∧ tm.stop = none := by
  refine ⟨rfl, ?_, rfl, ?_, rfl⟩ <;> decide +kernel

theorem test_wit_VectorMemoryCompletes_none : vecNone (.vld 0 tm) (fun x => vmemOk x tm .unit false) = true ∧
    vecNone (.vst 0 tm) (fun x => vmemOk x tm .unit true) = true := by
  refine ⟨?_, ?_⟩ <;> decide +kernel

/-! ## Caches, predictors, ownership -/

theorem test_wit_CacheInstructionsComplete_preload : Ready (tMem 0xE000000100000) 0 (.preload 0 5 1 true) ∧
    Ready (tMem 0xE000000100000) 0 (.preload 0 5 1 false) ∧ Ready (tMem 0xE000000100000) 0 (.preloadF 0 5 1) ∧
    (match translate (fetched (tMem 0xE000000100000) 0 (.preloadF 0 5 1)) 0 0xE000000100000 (preloadKind 1) true with
      | (w, .ok x) => !(preloadLine w 0 (x.pa / 64) 1 false).1.stalled && (preloadLine w 0 (x.pa / 64) 1 true).2.isNone
      | _ => false) = true := by
  refine ⟨ready_of ?_, ready_of ?_, ready_of ?_, ?_⟩ <;> decide +kernel
theorem test_wit_CacheInstructionsComplete_unbacked : Ready (ts (tk.wg 5 0xFFFFFFFFFFFC0)) 0 (.preloadF 0 5 1) ∧
    (match translate (fetched (ts (tk.wg 5 0xFFFFFFFFFFFC0)) 0 (.preloadF 0 5 1)) 0 0xFFFFFFFFFFFC0 (preloadKind 1) true with
      | (w, .error _) => !w.stalled
      | _ => false) = true := by
  refine ⟨ready_of ?_, ?_⟩ <;> decide +kernel
/-- Two lines to maintain, of which an interrupt that is ready stops the second. -/
def tDcr (on : Bool) : State :=
  let s := ts (((if on then { tk.crPut 0x4A 1 with status := 15 } else tk).wg 5 0xE00000010003F).wg 6 2)
  { s with power := { s.power with time := 5000 } }
theorem test_wit_CacheInstructionsComplete_dcr : Ready (tDcr false) 0 (.dcrClean 0 5 6 none) ∧
    (let u := fetched (tDcr false) 0 (.dcrClean 0 5 6 none)
     (dcrLines 0 .clean 0xE00000010003F 2 (drainAll u 0) 0).2 = (2, none) ∧
       (dcrLines 0 .clean 0xE00000010003F 2 (drainAll u 0) 0).1.stalled = false) := by
  refine ⟨ready_of ?_, ?_, ?_⟩ <;> decide +kernel
theorem test_wit_CacheInstructionsComplete_stopped : Ready (tDcr true) 0 (.dcrInv 0 5 6 (some 1)) ∧
    (let u := fetched (tDcr true) 0 (.dcrInv 0 5 6 (some 1))
     interruptReady u 0 = true ∧ 1 ≤ (u.core 0).pl ∧ (dcrLines 0 .inv 0xE00000010003F 1 (drainAll u 0) 0).2 = (1, none) ∧
       (dcrLines 0 .inv 0xE00000010003F 1 (drainAll u 0) 0).1.stalled = false) := by
  refine ⟨ready_of ?_, ?_, ?_, ?_, ?_⟩ <;> decide +kernel
theorem test_wit_CacheInstructionsComplete_fault : Ready (ts ((tk.wg 5 0xFFFFFFFFFFFC0).wg 6 1)) 0 (.dcrCinv 0 5 6 none) ∧
    (let u := fetched (ts ((tk.wg 5 0xFFFFFFFFFFFC0).wg 6 1)) 0 (.dcrCinv 0 5 6 none)
     (dcrLines 0 .cinv 0xFFFFFFFFFFFC0 1 (drainAll u 0) 0).2.2.isSome = true ∧
       (dcrLines 0 .cinv 0xFFFFFFFFFFFC0 1 (drainAll u 0) 0).1.stalled = false) := by
  refine ⟨ready_of ?_, ?_, ?_⟩ <;> decide +kernel

/-- A core whose predictor knows one branch. -/
def tPred : State := (match execBranchResolve 0 0x40 0x80 true .direct [] (ts tk) with | .next t => t | _ => ts tk)
theorem test_wit_CoreEventsComplete_pred : Ready tPred 0 (.predFlush 0) ∧ Ready tPred 0 (.predBar 0) ∧ (ts tk).active 0 = true ∧
    (ctxIdx ((fetched tPred 0 (.predFlush 0)).core 0)).isSome = true ∧
    (let k := (fetched tPred 0 (.predBar 0)).core 0
     k.pred.main ≠ [] ∧ (k.pred.ctxs.filter (fun x => sameCtx x (runningCtx k 0))).length = 1) := by
  refine ⟨ready_of ?_, ready_of ?_, ?_, ?_, ?_, ?_⟩ <;> decide +kernel
/-- A core with a wide queue entry that has completed, and a load that waits for its store buffer. -/
def tWaitLd : State := (storeTo (tMem 0) 0 0xE000000100038 .store 1 7 true).1.onCore 0
  (fun k => { k with wide := true, waitLd := some ⟨9, .gzx, 2, 0xE000000100038, false⟩ })
theorem test_wit_CoreEventsComplete_release : (tWaitLd.core 0).vq.all (fun e => !e.wide) = true ∧ tWaitLd.frozen = false ∧ tWaitLd.power.clocks = true ∧
    (tWaitLd.core 0).waitLd = some ⟨9, .gzx, 2, 0xE000000100038, false⟩ ∧
    (let u := tWaitLd.setCore 0 { tWaitLd.core 0 with waitLd := none }
     match load (drainThrough u 0 (waitsOn u 0 ⟨9, .gzx, 2, 0xE000000100038, false⟩)) 0 0xE000000100038 .load 2 with
      | (y, .val _) => !y.stalled && (y.core 0).waitLd.isNone
      | _ => false) = true := by decide +kernel
/-- A line granted to core 0. -/
def tFill : State := { ts tk with fills := [⟨0, 77, .e, some ⟨5, 0, 0, 0, 0⟩, true⟩] }
theorem test_wit_CoreEventsComplete_fill : tFill.stalled = false ∧ tFill.frozen = false ∧ look (tFill.core 0).asks 77 = none ∧
    (tFill.core 0).sb = [] ∧ tFill.homeq = [] ∧
    tFill.fills.find? (fun f => f.core == 0 && f.line == 77) = some ⟨0, 77, .e, some ⟨5, 0, 0, 0, 0⟩, true⟩ ∧
    (((tFill.core 0).l2.map (·.1)).filter (fun l => l % 2048 == 77 % 2048 && l != 77)).length < 16 := by decide +kernel
/-- A line granted to core 0 whose oldest store waits for it. -/
def tFillSt : State := { (storeTo (tMem 0) 0 0xE000000100078 .store 1 7 false).1 with fills := [⟨0, 0x380000004001, .m, some ⟨5, 0, 0, 0, 0⟩, true⟩] }
theorem test_wit_CoreEventsComplete_fillStore : tFillSt.stalled = false ∧ tFillSt.frozen = false ∧ tFillSt.fills.length = 1 ∧ tFillSt.homeq = [] ∧
    (((tFillSt.core 0).l2.map (·.1)).filter (fun l => l % 2048 == 0x380000004001 % 2048 && l != 0x380000004001)).length < 16 ∧
    (match ((receiveFill tFillSt 0 0x380000004001).core 0).sb with
      | e :: _ => e.pa / 64 == 0x380000004001
      | [] => false) = true ∧
    (drainStore (receiveFill tFillSt 0 0x380000004001) 0).stalled = false := by decide +kernel
/-- A core that counts and samples: `n` records held. -/
def tCount (n : Nat) : State :=
  ts { ((((((tkAt 1 false).crPut 0x80 0xFF).crPut 0xA1 0xE000000100000).crPut 0xA2 0x50004).crPut 0x8F (2 ^ 48 - 1)).crPut 0x97 (3 + 2 ^ 11)) with
       smpDue := [0x40, 0x44], smpHeld := List.replicate n 5 }
theorem test_wit_CoreEventsComplete_counts : bitAt (((tCount 0).core 0).crEff 0x80) 7 = true ∧ bitAt (((tCount 0).core 0).crEff 0x80) 9 = false ∧
    (tCount 0).countingAllowed 0 = true ∧ ((tCount 1).core 0).smpHeld.length < 2 ∧ 2 ≤ ((tCount 2).core 0).smpHeld.length ∧
    (((tCount 0).core 0).crBase 0x8F).toNat = 2 ^ 48 - 1 ∧ fld (((tCount 0).core 0).crEff 0x97) 0 10 ≠ 0 ∧
    passesFilter (fld (((tCount 0).core 0).crEff 0x97) 10 4) ((tCount 0).core 0).pl ((tCount 0).core 0).secure = true := by
  refine ⟨?_, ?_, ?_, ?_, ?_, ?_, ?_, ?_⟩ <;> decide +kernel
theorem test_wit_CoreEventsComplete_sample : ((tCount 1).core 0).smpDue = [0x40, 0x44] ∧ sampleFits 0x40 0x40 0xE000000100008 0xE000000100008 = true ∧
    sampleFits 0x40 0x44 0 0 = false ∧ sampleFits 0x40 0x40 0 0 = true := by decide +kernel
theorem test_wit_CoreEventsComplete_record : (tCount 1).frozen = false ∧
    (let s := tCount 1
     let u := s.setCore 0 { s.core 0 with smpHeld := [] }
     let ptr := (s.core 0).crBase 0xA2
     let pa := fld ((s.core 0).crBase 0xA1) 12 40 * 4096 + 64 * fld ptr 0 16
     fld ptr 0 16 + 1 == fld ptr 16 16 && fld ptr 32 16 == 0 && populated u pa && decide (regionOf pa = .vault) &&
      (match homeWrite (chargeAccess u 0 (pa / 64) (qosIn u 0 (bitAt ((s.core 0).crBase 0xA3) 44))) (pa / 64) (bitAt ((s.core 0).crBase 0xA3) 44) (fld ((s.core 0).crBase 0xA3) 32 12) 5 (2 ^ 64 - 1) 0 with
        | (w, .ok _) => !w.stalled
        | _ => false)) = true := by decide +kernel

/-- A part whose ownership table lies in the vault. -/
def tOwn (locked ie : Bool) (pa : W64) : State :=
  let s := ts ({ tk with status := BitVec.ofNat 64 (7 + 8 * b2n ie) }.wg 5 pa)
  [0, 1, 2].foldl (fun s k => (s.setReg .ownTbase 0 k 0 0xE000000200000).setReg .ownTpages 0 k 0 0x1000) (s.setReg .ownTlock 0 0 0 (b2w locked))
theorem test_wit_OwnershipCompletes_set : Ready (tOwn false true 0) 0 (.ownSet 0 ⟨7, 5, 6⟩) ∧
    ((fetched (tOwn false true 0) 0 (.ownSet 0 ⟨7, 5, 6⟩)).core 0).ie = true ∧ Ready (tOwn false false 0xE000000200000) 0 (.ownSet 0 ⟨7, 5, 6⟩) ∧
    ((fetched (tOwn false false 0xE000000200000) 0 (.ownSet 0 ⟨7, 5, 6⟩)).core 0).ie = false ∧
    (ownSetPage (fetched (tOwn false false 0xE000000200000) 0 (.ownSet 0 ⟨7, 5, 6⟩)) 0xE000000200000 0).1.stalled = false := by
  refine ⟨ready_of ?_, ?_, ready_of ?_, ?_, ?_⟩ <;> decide +kernel
theorem test_wit_OwnershipCompletes_uncovered : Ready (tOwn false false 0xF000000000000) 0 (.ownSet 0 ⟨7, 5, 6⟩) ∧
    entryAddr (fetched (tOwn false false 0xF000000000000) 0 (.ownSet 0 ⟨7, 5, 6⟩)) 0xF000000000000 = none ∧
    (tOwn false false 0).frozen = false ∧ tableLocked (tOwn false false 0) = false ∧ (tOwn false false 0).power.memWait = false := by
  refine ⟨ready_of ?_, ?_, ?_, ?_, ?_⟩ <;> decide +kernel
theorem test_wit_OwnershipCompletes_probe : (homeCheck (tOwn true false 0) (0xE000000300000 / 64) true 1 true).1.stalled = false ∧
    tableLocked (tOwn true false 0) = true ∧ (tOwn true false 0).frozen = false ∧
    (match entryAddr (tOwn true false 0) 0xE000000300000 with
      | some e => !(ownFill (tOwn true false 0) (ownCacheOf (.vlt 3)) (e / 64)).1.stalled
      | none => false) = true := by decide +kernel

/-! ## Accesses that leave the core, interrupts -/

/-- A root complex that runs, with the link of its first port up and its first mebibytes routed to it. -/
def tIo (k : Core) : State :=
  (((({ ts k with rcs := [(2, { Rc.reset with ports := [(0, { RootPort.reset with raw := [(0x20, 0x00F00000)] })] })] } : State)).setReg .rcCtl 2 0 0 1).setReg .rcPortstat 2 0 0 2).setReg .meshWin 132 7 0 (BitVec.ofNat 64 (1 + 2 * 2 ^ 15 + 0xC400000000000 / 2 ^ 30 * 2 ^ 22))
theorem test_wit_OutboundAccesses_config : Ready (tIo tk) 0 (.configAccess (.core 0) 7 0xD000020000000 false .w32 0) ∧
    (match translate (fetched (tIo tk) 0 (.configAccess (.core 0) 7 0xD000020000000 false .w32 0)) 0 0xD000020000000 .load true with
      | (w, .ok x) => decide (regionAt x.pa = .ecam 2) && (match load w 0 0xD000020000000 .load 4 with
          | (y, .val _) => !y.stalled
          | _ => false)
      | _ => false) = true := by
  refine ⟨ready_of ?_, ?_⟩ <;> decide +kernel
theorem test_wit_OutboundAccesses_port : Ready (tIo tk) 0 (.outboundRequest (.core 0) 7 0xC400000000000 false .w32 0) ∧
    (match translate (fetched (tIo tk) 0 (.outboundRequest (.core 0) 7 0xC400000000000 false .w32 0)) 0 0xC400000000000 .load true with
      | (w, .ok x) => decide (regionAt x.pa = .pcie 2) && (match load w 0 0xC400000000000 .load 4 with
          | (y, .left _ _ _ _) => !y.stalled
          | _ => false)
      | _ => false) = true := by
  refine ⟨ready_of ?_, ?_⟩ <;> decide +kernel
theorem test_wit_OutboundAccesses_store : Ready (tIo tk) 0 (.outboundRequest (.core 0) 7 0xC400000000000 true .w32 0) ∧
    (match translate (fetched (tIo tk) 0 (.outboundRequest (.core 0) 7 0xC400000000000 true .w32 0)) 0 0xC400000000000 .store true with
      | (w, .ok x) => decide (regionAt x.pa = .pcie 2) && (match storeTo w 0 0xC400000000000 .store 4 0 false with
          | (y, .done) => !y.stalled
          | _ => false)
      | _ => false) = true := by
  refine ⟨ready_of ?_, ?_⟩ <;> decide +kernel
/-- A far atomic of a line of the vault, with g5 its address. -/
def tFar : InFlight := .atomic .add ⟨7, 5, 6, true, true, false, false⟩
/-- What an access of R192 leaves: it is out, and no entry waits for it. -/
def leftB (s : State) (a : InFlight) : Bool :=
  match leaveCore s 0 a with
  | (w, .ok true) => (w.core 0).out.isSome && (w.core 0).heldEntry.isNone && !w.stalled
  | _ => false
theorem test_wit_OutboundAccesses_timeout : Ready (tMem 0xE000000100038) 0 (.onchipAccessTimeout 0 tFar) ∧
    leftB (fetched (tMem 0xE000000100038) 0 (.onchipAccessTimeout 0 tFar)) tFar = true ∧
    (let s := tMem 0xE000000100038
     let o := flightAccess (s.core 0) tFar
     o.va.toNat % o.bytes = 0 ∧ (match translate s 0 o.va o.kind true with
       | (_, .ok x) => unrepeatable tFar x o
       | _ => false) = true) := by
  refine ⟨ready_of ?_, ?_, ?_, ?_⟩ <;> decide +kernel

/-- PL3 with interrupts enabled and its third timer reached. -/
def tInt : State := { ts { tk.crPut 0x4A 1 with status := 15 } with power := { tp with time := 5000 } }
theorem test_wit_InterruptsAndResponses_entry : entersInterrupts tInt 0 = true ∧ (firstCand (eligible tInt 0)).isSome = true ∧ (tInt.core 0).out = none := by
  decide +kernel
/-- That core as an access to an on-chip target has left it. -/
def tIntMem : State := tInt.onCore 0 (fun k => { k.wg 5 0xE000000100038 with l2 := (tMem 0).core 0 |>.l2 })
theorem test_wit_InterruptsAndResponses_flying : entersInterrupts tIntMem 0 = true ∧ interruptReady tIntMem 0 = true ∧ (tIntMem.core 0).out = none ∧
    (firstCand (eligible (flyingOut tIntMem 0 tFar) 0)).isSome = true ∧ ((flyingOut tIntMem 0 tFar).core 0).out.isSome = true := by
  refine ⟨?_, ?_, ?_, ?_, ?_⟩ <;> decide +kernel
/-- An access that cannot be repeated is out under tag 7. -/
def tOut (held : Option (Nat × Nat)) : State :=
  let s := (tIo tk).onCore 0 (fun q => { q with heldEntry := held, out := some ⟨9, .gzx, 4, 0xC400000000000, 0xC400000000000, false, 0, some 2, 7, false, none⟩ })
  s.setRc 2 { s.rc 2 with out := [⟨7, 0, 0, none⟩] }
theorem test_wit_InterruptsAndResponses_held : entersInterrupts { tInt with cores := [(0, { tInt.core 0 with out := (tOut none).core 0 |>.out })] } 0 = true ∧
    (firstCand (eligible { tInt with cores := [(0, { tInt.core 0 with out := (tOut none).core 0 |>.out })] } 0)).isSome = true := by decide +kernel
theorem test_wit_InterruptsAndResponses_response : ((tOut none).rc 2).out.find? (fun x => x.tag == 7) = some ⟨7, 0, 0, none⟩ ∧
    ((tOut none).core 0).out = some ⟨9, .gzx, 4, 0xC400000000000, 0xC400000000000, false, 0, some 2, 7, false, none⟩ ∧
    ((tOut none).core 0).heldEntry = none ∧ (tOut none).frozen = false ∧ ((tOut (some (0x1002, 3))).core 0).heldEntry = some (0x1002, 3) ∧
    (raiseAer (((tagDone (tOut none) 2 7).setCore 0 { (tOut none).core 0 with out := none }).except 0 (Exc.plain 0x13 1 0xC400000000000 32)) 2 0 aerTimeout).stalled = false := by
  refine ⟨?_, ?_, ?_, ?_, ?_, ?_⟩ <;> decide +kernel
theorem test_wit_OutboundAccesses_entry : ((tOut (some (0x1002, 3))).core 0).heldEntry.isSome = true ∧
    (({ tOut (some (0x1002, 3)) with cores := [(0, { (tOut (some (0x1002, 3))).core 0 with out := some (flightAccess tk tFar) })] } : State).core 0).out =
      some (flightAccess tk tFar) ∧ (flightAccess tk tFar).rc = none := by refine ⟨?_, ?_, ?_⟩ <;> decide +kernel

/-! ## Supplies, clocks, the voltage link, pins -/

theorem test_wit_SupplyAndResetEvents : State.reset.power.vaon = false ∧ { tp with pwrgood := false }.vaon = true ∧ (ts tk).power.pwrgood = true ∧
    warmAllowed (ts tk) = true ∧ (ts tk).power.resetN = false ∧ warmAllowed { ts tk with power := { tp with restart := true } } = true := by
  refine ⟨?_, ?_, ?_, ?_, ?_, ?_⟩ <;> decide +kernel
/-- The package asleep, with every wake source enabled. -/
def tAsleep : State :=
  let s := (((ts tk).setReg .lvPkgcfg 0 0 0 0x300).setReg .lvAoncmp 0 0 0 1).setReg .lvGpiowake 0 0 0 3
  { s with power := { s.power with pkg := .shuttered, clocks := false, pll := false, memWait := true, time := 1 } }
/-- The package awake, with memory still to return. -/
def tWoken : State := { ts tk with power := { tp with memWait := true }, mcs := [(3, { Mc.reset with saved := [1] })], keys := [(3, 7)] }
theorem test_wit_ClockStartAndWakeEvents_start : { tp with pll := false }.pll = false ∧ (ts tk).power.pkg = .running ∧ (ts tk).power.errFatal = false ∧
    startReady { ts tk with power := { tp with startDue := true, clocks := false } } = true := by
  refine ⟨?_, ?_, ?_, ?_⟩ <;> decide +kernel
theorem test_wit_ClockStartAndWakeEvents_wake : tAsleep.power.pkg ≠ .running ∧ tAsleep.stalled = false ∧
    [WakeSrc.i3c, .wakeN, .gpio, .timer, .swd].all (wakeEnabled tAsleep) = true ∧ (tAsleep.reg .lvAoncmp 0 0 0).toNat ≤ tAsleep.power.time ∧
    tAsleep.power.clocks = false ∧ tAsleep.power.gpio = tAsleep.power.gpioRef ∧ tAsleep.power.errFatal = false := by
  refine ⟨?_, ?_, ?_, ?_, ?_, ?_, ?_⟩ <;> decide +kernel
theorem test_wit_ClockStartAndWakeEvents_memory : tWoken.power.memWait = true ∧ tWoken.power.pll = true ∧ (tWoken.mc 3).saved = [1] ∧
    (memReady (unparkMc tWoken 3)).stalled = false ∧ tWoken.rootClock = true ∧ tWoken.frozen = false ∧
    tWoken.irt.late = [] ∧ tWoken.irt.lateRes = [] ∧ tWoken.keys ≠ [] ∧
    ({ tWoken with mcs := [(3, { Mc.reset with saved := [1], filling := true })] }.mc 3).filling = true ∧
    ({ tWoken with mcs := [] }).mcs.all (fun p => p.2.saved.isEmpty) = true := by
  refine ⟨?_, ?_, ?_, ?_, ?_, ?_, ?_, ?_, ?_, ?_, ?_⟩ <;> decide +kernel

/-- Louvre with the link its own, and a raise under way on die 0. -/
def tLink (want : Bool) : State :=
  let s := ts { tk with raising := true, cur := 10, goal := if want then 3 else 10 }
  { s with power := { s.power with raises := [(0, ⟨true, 120, 110, true, 0⟩)], vrs := [(4, { Vr.off with enabled := true, code := 110 })] },
           wicket := { s.wicket with running := true } }
theorem test_wit_VoltageLinkCommands : linkOn (tLink true) = true ∧ frameFate [] = none ∧ (frameFate [.silent, .silent, .silent, .silent]).isSome = true ∧
    vidAllowed 0 60 = true ∧ vidAllowed 0 59 = false ∧ ((tLink true).vr 0).code ≠ 60 ∧ vidAllowed 4 110 = true ∧ ((tLink true).vr 4).code = 110 ∧
    ((tLink true).raise 0).busy = true ∧ ((tLink true).raise 0).retry = true ∧ wantsRaise { tLink false with cores := [] } 0 = false ∧
    ((tLink true).vr 4).sticky = 0 ∧ (({ Vr.off with sticky := 2 }).sticky &&& 0b001110 ≠ 0) ∧ ((tLink true).vr 0).shutdown = false := by
  refine ⟨?_, ?_, ?_, ?_, ?_, ?_, ?_, ?_, ?_, ?_, ?_, ?_, ?_, ?_⟩ <;> decide +kernel

/-- A raise of die 0 to try again, which core 0 still wants. -/
def tRetry : State := (ts { tk with cur := 10, goal := 3 }).setRaise 0 ⟨false, 120, 110, true, 1⟩
theorem test_wit_VoltageLinkCommands_retry : (tRetry.raise 0).retry = true ∧ linkOn tRetry = true ∧ wantsRaise tRetry 0 = true ∧
    (tRetry.raise 0).busy = false ∧ tRetry.power.clocks = true ∧
    (let q := (dieCores tRetry 0).foldl (fun s c => if follows (s.core c) ∧ (s.core c).goal < (s.core c).cur
        then s.setCore c { s.core c with raising := true } else s) (tRetry.setRaise 0 { tRetry.raise 0 with retry := false })
     (tRetry.vr 0).code.toNat < dieNeed q 0 ∧ dieNeed q 0 ≤ 255) := by
  refine ⟨?_, ?_, ?_, ?_, ?_, ?_, ?_⟩ <;> decide +kernel

theorem test_wit_PinsAndManagement : bitAt (tLink true).power.gpio 15 = false ∧ (tLink true).stalled = false ∧
    bitAt ((tLink true).reg .lvGpiowake 0 0 0) 15 = false ∧ bitAt (((tLink true).setReg .irtGpioedge 0 0 0 0x8000).reg .irtGpioedge 0 0 0) 15 = true ∧
    (raiseEvent { tLink true with power := { (tLink true).power with gpio := 0x8000 } } 143).stalled = false ∧ (tLink true).rootClock = true ∧
    bitAt (((tLink true).setReg .lvPkgcfg 0 0 0 0).reg .lvPkgcfg 0 0 0) 9 = false ∧ (tLink true).power.entering = none ∧ (tLink true).irt.late = [] ∧
    bitAt ((tLink true).reg .irtSrc 0 5 0) 4 = false ∧ wicketUp (tLink true) = true ∧ mbBusy (tLink true) 0 = false ∧ mbBusy (tLink true) 1 = false := by
  refine ⟨?_, ?_, ?_, ?_, ?_, ?_, ?_, ?_, ?_, ?_, ?_, ?_, ?_⟩ <;> decide +kernel

/-! ## Homes and coherence -/

/-- The line of the vault that the cases below use. -/
def tl : Nat := 0xE000000100000 / 64
/-- What lets an L2 send a request, as a check. -/
def sendB (s : State) (l : Nat) (r : Req) : Bool :=
  (if r = .upgrade then (l2Of s 0 l).any (fun x => x.st == .s || x.st == .o) else (l2Of s 0 l).isNone) && s.power.clocks && !s.stalled &&
    !outstanding s 0 l && (regionOf (64 * l)).memory && populated s (64 * l) && !missFull s 0 .d && !queueFull s l
theorem test_wit_HomeRequestsComplete : requestOf (.readShared 0 (BitVec.ofNat 46 tl) .d) = some (0, BitVec.ofNat 46 tl, .readShared, .d) ∧
    sendB (ts tk) tl .readShared = true ∧ charged tl .readShared = false ∧
    (let w := ((ts tk).event 0 0x012 1).onCore 0 (fun k => { k with asks := put k.asks tl .d })
     lineBusy w tl = false ∧ queued w tl = false) ∧ (ts tk).power.memWait = false ∧ tableLocked (ts tk) = false ∧
    llcFind (ts tk) tl = none ∧ look (ts tk).dirs tl = none ∧ (ts tk).dirUse = [] := by
  refine ⟨rfl, ?_, ?_, ⟨?_, ?_⟩, ?_, ?_, ?_, ?_, ?_⟩ <;> decide +kernel
/-- Core 0 holds the line in S, as the directory says. -/
def tShared : State := { ts { tk with l2 := [(tl, ⟨.s, ⟨5, 0, 0, 0, 0⟩, true, false, false, 0, 0, false⟩)] } with dirs := [(tl, ⟨1, none, 0⟩)] }
theorem test_wit_HomeRequestsComplete_upgrade : sendB tShared tl .upgrade = true ∧ (look tShared.dirs tl).map holders = some [0] := by decide +kernel
/-- A regulator that is on, with no token at core 0's stop. -/
def tRegul : State := ((ts tk).setReg .meshMemreg 0 0 0 1).setReg .meshMemtok 0 0 0 0
theorem test_wit_HomeRequestsComplete_waits : charged 0 .readShared = true ∧ mustWait tRegul 0 = true ∧
    missFull { ts { tk with asks := (List.range 24).map (fun i => (i, L1.d)) } with
      fills := (List.range 24).map (fun i => ⟨0, i, .e, none, true⟩) } 0 .d = true := by decide +kernel
/-- An LLC way that holds a line of DRAM. -/
def tWay : LlcWay := { line := 77, c := ⟨5, 0, 0, 0, 0⟩, dirty := false, placed := false, lru := false }
theorem test_wit_HomeRequestsComplete_full : llcFind { ts tk with llc := [(llcKey 77 0, tWay)] } 77 = some (0, tWay) := by decide +kernel
/-- The attributes of requests of PL3 of the secure world. -/
def tId : Ident := ⟨true, 1, 0, 3⟩
/-- A transaction with its snoops. -/
def tTxn (l : List (Nat × Snp × SnpSt)) : State :=
  { ts { tk with l2 := [(tl, ⟨.m, ⟨0x1122, 0, 0, 0, 0⟩, true, false, false, 0, 0, false⟩), (tl + 1, ⟨.e, ⟨3, 0, 0, 0, 0⟩, false, false, false, 0, 0, false⟩)] } with
    txns := [(tl, ⟨5, .readUnique, l, none, false, 0, 1, tId⟩)] }
theorem test_wit_HomeRequestsComplete_busy : lineBusy (tTxn []) tl = true ∧ queueFull (tTxn []) tl = false ∧
    queueFull { tTxn [] with homeq := List.replicate 64 ⟨5, tl, .readShared, tId⟩ } tl = true := by
  refine ⟨?_, ?_, ?_⟩ <;> decide +kernel
theorem test_wit_CoherenceMessages_snoop : (tTxn [(0, .inv, .sent)]).stalled = false ∧ (tTxn [(0, .inv, .sent)]).frozen = false ∧ (tTxn [(0, .inv, .sent)]).fills.any (fun f => f.core == 0 && f.line == tl) = false ∧
    look (tTxn [(0, .inv, .sent)]).txns tl = some ⟨5, .readUnique, [(0, .inv, .sent)], none, false, 0, 1, tId⟩ ∧ look ((tTxn []).core 0).wbb tl = none ∧
    look ((tTxn []).core 0).l2 tl = some ⟨.m, ⟨0x1122, 0, 0, 0, 0⟩, true, false, false, 0, 0, false⟩ := by
  refine ⟨?_, ?_, ?_, ?_, ?_, ?_⟩ <;> decide +kernel
theorem test_wit_CoherenceMessages_response :
    look (tTxn [(0, .inv, .answered none false), (5, .inv, .sent)]).txns tl =
      some ⟨5, .readUnique, [(0, .inv, .answered none false), (5, .inv, .sent)], none, false, 0, 1, tId⟩ ∧
    [((5 : Nat), Snp.inv, SnpSt.sent)].all (fun x => x.1 != 0) = true ∧
    (look (tTxn [(0, .inv, .answered (some ⟨3, 0, 0, 0, 0⟩) true)]).txns tl).map (fun t => (t.snoops, t.req, decide (t.core < 192))) =
      some ([(0, .inv, .answered (some ⟨3, 0, 0, 0, 0⟩) true)], .readUnique, true) ∧ (tTxn []).homeq = [] := by decide +kernel
theorem test_wit_CoherenceMessages_evict : outstanding (tTxn []) 0 (tl + 1) = false ∧ lineBusy (tTxn []) tl = true ∧ ((tTxn []).core 0).wbb.length < 16 ∧
    lineBusy (tTxn []) (tl + 1) = false ∧ look ((tTxn []).core 0).l2 (tl + 1) = some ⟨.e, ⟨3, 0, 0, 0, 0⟩, false, false, false, 0, 0, false⟩ := by
  refine ⟨?_, ?_, ?_, ?_, ?_⟩ <;> decide +kernel
/-- A request held at its stop, a victim on its way, and a far atomic at the head of the store buffer. -/
def tMisc : State :=
  { ts { tk with sb := [⟨0xE000000100008, 8, 5, .atomic .add true true 3, .wb, false, false, tId⟩] } with
    heldReqs := [⟨0, 0, tl + 7, .readShared, tId⟩], victims := [⟨3, tl, ⟨5, 0, 0, 0, 0⟩, 3, none⟩] }
theorem test_wit_CoherenceMessages_proceed : tMisc.stalled = false ∧ tMisc.frozen = false ∧ tMisc.power.memWait = false ∧ tableLocked tMisc = false ∧ tMisc.homeq = [] ∧
    (tMisc.victims.find? (fun v => v.slice == 3 && v.line == tl)).isSome = true ∧
    tMisc.heldReqs.find? (fun q => q.stop == 0) = some ⟨0, 0, tl + 7, .readShared, tId⟩ ∧ queueFull tMisc (tl + 7) = false ∧
    lineBusy tMisc (tl + 7) = false ∧ queued tMisc (tl + 7) = false ∧ (regionAt 0xE000000100008).memory = true := by
  refine ⟨?_, ?_, ?_, ?_, ?_, ?_, ?_, ?_, ?_, ?_, ?_⟩ <;> decide +kernel

/-! ## Registers, mesh, memory -/

/-- An access of PL3 of the secure world, and one of normal PL0. -/
def tx : Attr := ⟨true, 1, 3, some 0, 0⟩
def tx0 : Attr := ⟨false, 0, 0, some 0, 0⟩
theorem test_wit_RegisterCommandsComplete : putOf (ts tk) (.swint 300 tx) = some (.irtSwint, 0, 0, (300 : BitVec 12).setWidth 64, tx) ∧
    (regWrite (ts tk) (regAddr .irtSwint 0 0 0) 8 300 tx).stalled = false ∧
    getOf (.rcRead .irt_dbrej .w16 tx) = some (.irtDbrej, 0, 0, 0, 2, tx) ∧ (regRead (ts tk) (regAddr .irtDbrej 0 0 0) 2 tx).1.stalled = false := by
  refine ⟨rfl, ?_, rfl, ?_⟩ <;> decide +kernel
theorem test_wit_RegisterCommandsComplete_plain : (ts tk).power.clocks = true ∧ regionOf (regAddr .lvPkgcfg 0 0 0) = .regs ∧
    (regWrite (ts tk) (regAddr .lvPkgcfg 0 0 0) 8 0 tx).stalled = false ∧ (regWrite64 (ts tk) 0xF000004800000 0 tx).stalled = false ∧
    portalAt (regAddr .lvPkgcfg 0 0 0) = none ∧ ((regAt (regAddr .lvPkgcfg 0 0 0 / 8 * 8)).map (fun a => (plainSetting a.d.id, a.d.wlevel))) = some (true, 3) ∧
    attrLevel tx = 3 ∧ attrLevel tx0 < 3 := by
  refine ⟨?_, ?_, ?_, ?_, ?_, ?_, ?_, ?_⟩ <;> decide +kernel
theorem test_wit_RegisterCommandsComplete_below : ((regAt (regAddr .lvPkgcfg 0 0 0)).map (fun a => (below a a.d.wlevel 0 8 tx0, below a a.d.wlevel 0 8 tx))) =
    some (true, false) ∧ regAddr .lvPkgcfg 0 0 0 ≠ regAddr .meshDeny 0 0 0 := by decide +kernel
theorem test_wit_LlcLockRule_window : bitAt (0x130008 : W64) 20 = true ∧ bitAt (0x130008 : W64) (fld (0x130008 : W64) 16 4) = true ∧
    popc ((0x130008 : W64) &&& 0xFFFF) ≤ 12 := by decide +kernel
theorem test_wit_LlcLockRule : 2 ≤ attrLevel tx ∧ 12 < popc ((0x1FFF : W64) &&& 0xFFFF) ∧ popc ((0xFFF : W64) &&& 0xFFFF) ≤ 12 := by decide +kernel
/-- A part with one block of each kind running. -/
def tRun : State := (((ts tk).setReg .mcCtl 3 0 0 1).setReg .vltCtl 3 0 0 1).setReg .ownClaim1 0 0 0 (2 ^ 61)
theorem test_wit_RunAndQuiesced : blockRuns tRun (.mc 3) = true ∧ claimed tRun (.mc 3) = false ∧ blockRuns tRun (.vlt 3) = true ∧ claimed tRun (.vlt 3) = true ∧ blockRuns tRun (.vlt 5) = false ∧
    inFlight tRun (.vlt 5) = false ∧ inFlight tRun (.mc 5) = false ∧ blockRuns tRun (.mc 5) = false ∧ tRun.stalled = false := by
  refine ⟨?_, ?_, ?_, ?_, ?_, ?_, ?_, ?_, ?_⟩ <;> decide +kernel
theorem test_wit_MeshAndUpsetEvents : bitAt (linkstat (ts tk) 131 3) 29 = false ∧ bitAt (linkstat (ts tk) 131 3) 30 = false ∧
    ({ ts tk with links := [(527, ⟨15, []⟩)] }.link (4 * 131 + 3)).sends + 1 = 16 ∧ ((ts tk).link 0).sends + 1 ≠ 16 ∧
    bitAt (((ts tk).setReg .pmWincfg 12 0 0 1).reg .pmWincfg 12 0 0) 0 = true ∧ look ((tMem 0).core 0).l2 tl = some ⟨.m, ⟨0x1122, 0, 0, 0, 0⟩, true, false, false, 0, 0, false⟩ ∧
    regionOf 0xE00000010003F = .vault ∧ bitAt ((ts tk).note tl).v1 63 = false := by
  refine ⟨?_, ?_, ?_, ?_, ?_, ?_, ?_, ?_⟩ <;> decide +kernel

/-- A part with a published map of four channels and the keys of three owners. -/
def tDram : State :=
  let m : PubMap := { n := 30, chbits := 2, rkbits := 0, set := 3, x8 := false, r2 := false, rows32 := false,
                      masks := (List.range 13).map (fun i => BitVec.ofNat 36 (2 ^ (i + 3))), crmask := 0 }
  let s := { (ts tk).setReg .meshWin 132 0 0 3 with map := some m, keys := [(0, 1), (1, 1), (2, 3)] }
  (List.range 4).foldl (fun s n => (s.setReg .mcCtl n 0 0 1).setMc n { s.mc n with trained := true, lapStart := 5, fails := [0, 0, 0] }) s
theorem test_wit_MeshAndUpsetEvents_running : (ts tk).frozen = false ∧ (ts tk).power.errFatal = false ∧ memoryStop 99 = true := by
  refine ⟨?_, ?_, ?_⟩ <;> decide +kernel
/-- A read of the channel that waits, after three parity errors. -/
def tAlert : State := { tDram.setMc 4 { tDram.mc 4 with parity := [(0, 3)] } with fills := [⟨0, 77, .e, some ⟨5, 0, 0, 0, 0⟩, true⟩] }
theorem test_wit_ControllerEvents_alert : (match tAlert.map with
      | some m => decide ((dramAt m 77).chan = 4 ∧ (dramAt m 77).rank = 0 ∧ regionOf (64 * 77) = .dram ∧ 3 ≤ lookD 0 (tAlert.mc 4).parity 0)
      | none => false) = true ∧ dramLine tAlert 77 = true := by
  refine ⟨?_, ?_⟩ <;> decide +kernel
theorem test_wit_MemoryRequestsComplete_vault : isVault tl = true ∧ (ts tk).power.clocks = true ∧
    (match homeRead (ts tk) tl true 1 with
      | (w, .ok _) => !w.stalled
      | _ => false) = true ∧
    (match homeWrite (ts tk) tl true 1 5 0xFF 0 with
      | (w, .ok _) => !w.stalled
      | _ => false) = true := by
  refine ⟨?_, ?_, ?_, ?_⟩ <;> decide +kernel
/-- The vault owned by a compartment, to whom the secure world's writes are denied. -/
def tDenied : State := { tOwn true false 0 with mem := [(0xE000000200200, 0x02), (0xE000000200201, 0x20)] }
theorem test_wit_MemoryRequestsComplete_denied : (match homeWrite tDenied tl false 0 5 0xFF 0 with
      | (w, .error _) => !w.stalled
      | _ => false) = true := by decide +kernel
theorem test_wit_MemoryRequestsComplete_dram : dramLine tDram 77 = true ∧
    (match targetCheck tDram 77 true 1 true with
      | (w, .ok (ko, _)) => (chanOf w 77 == chanOf tDram 77) && ko < 4096
      | _ => false) = true ∧ tDram.rootClock = true ∧ bitAt (tDram.reg .mcCtl 3 0 0) 0 = true ∧ (keyOf tDram 2).isSome = true := by
  refine ⟨?_, ?_, ?_, ?_, ?_⟩ <;> decide +kernel
theorem test_wit_MemoryRequestsComplete_quiet : settleLine (ts tk) tl = ts tk ∧ look (ts tk).dirs tl = none ∧ llcFind (ts tk) tl = none ∧
    (ts tk).power.memWait = false ∧ tableLocked (ts tk) = false ∧ tableLocked tDram = false ∧ tDram.stalled = false ∧ tDram.homeq = [] := by
  refine ⟨?_, ?_, ?_, ?_, ?_, ?_, ?_, ?_⟩ <;> decide +kernel
theorem test_wit_MemoryRequestsComplete_remap : bitAt (((ts tk).setReg .vltRemap 95 7 0 1).reg .vltRemap 95 7 0) 0 = true ∧
    bitAt (((ts tk).setReg .vltRemap 95 7 0 1).reg .vltRemap 95 7 0) 28 = false ∧ bitAt ((tDram.setReg .mcRemap 3 15 0 1).reg .mcRemap 3 15 0) 0 = true ∧
    bitAt ((tDram.setReg .mcRemap 3 15 0 1).reg .mcRemap 3 15 0) 55 = false ∧ tDram.map.isSome = true := by
  refine ⟨?_, ?_, ?_, ?_, ?_⟩ <;> decide +kernel
theorem test_wit_ControllerEvents : (tDram.mc 3).trained = true ∧ mapOnly tDram 3 = false ∧ (tDram.mc 3).fails = [0, 0, 0] ∧ (tDram.mc 3).lapStart ≠ 0 ∧
    bitAt (tDram.reg .mcScrubstat 3 0 0) 32 = false ∧ scrubs (lapBegin (tDram.setReg .mcScrubcfg 3 0 0 1) (.mc 3)) (.mc 3) = true ∧
    scrubs (lapBegin ((tDram.setReg .vltScrubcfg 3 0 0 1).setReg .vltCtl 3 0 0 1) (.vlt 3)) (.vlt 3) = true := by
  refine ⟨?_, ?_, ?_, ?_, ?_, ?_, ?_⟩ <;> decide +kernel

/-! ## Offload complexes -/

/-- An offload complex that runs, with a descriptor (operation 3) queued on one instance. -/
def tOec : State :=
  ((((ts tk).setVi 2 7 { Vi.reset with queues := [(3, [(5, 3)])], joined := true }).setReg .oecCtl 2 0 0 1).setReg .oecCfg 2 0 0 0x24).setReg .oecLanestat 2 0 0 0
theorem test_wit_OffloadCommandsComplete_slot : viState (setViState (ts tk) 2 255 3) 2 255 = 3 ∧ oecOn tOec 2 = true ∧ blockRuns tOec (.oec 2) = true ∧
    (tOec.lane 2 2).job = none ∧ laneUsable tOec 2 2 = true ∧ pickVi (updateCand tOec 2) 2 = some 7 ∧ pickQueue (updateCand tOec 2) 2 7 = some 3 ∧
    lookD [] ((updateCand tOec 2).vi 2 7).queues 3 = [(5, 3)] := by
  refine ⟨?_, ?_, ?_, ?_, ?_, ?_, ?_, ?_⟩ <;> decide +kernel
/-- A CRC of no bytes. -/
def tDesc : W512 := 3 * 2 ^ 64
/-- It on a lane. -/
def tJob (o : Option Outcome) : State := { tOec with lanes := [(8 * 2 + 2, ⟨some ⟨7, 3, 5, tDesc, o⟩, 0⟩)] }
theorem test_wit_OffloadCommandsComplete_job : (tOec.power.clocks = true ∧ ((tJob none).lane 2 2).job = some ⟨7, 3, 5, tDesc, none⟩ ∧ descOp tDesc = 3) ∧
    (runJob (tJob none) 2 2 ⟨7, 3, 5, tDesc, none⟩).1.stalled = false ∧ oecOn (tJob none) 2 = true ∧
    ((tJob (some (Outcome.plain stNoLane))).lane 2 2).job = some ⟨7, 3, 5, tDesc, some (Outcome.plain stNoLane)⟩ ∧
    (completeJob (tJob (some (Outcome.plain stNoLane))) 2 2 ⟨7, 3, 5, tDesc, some (Outcome.plain stNoLane)⟩ (Outcome.plain stNoLane)).stalled = false := by
  refine ⟨?_, ?_, ?_, ?_, ?_⟩ <;> decide +kernel

/-! ## The mailbox -/

/-- Wicket runs, and channel `ch` waits with command `cmd` and a buffer of `len` bytes at the line used above. -/
def tMb (ch cmd len : Nat) : State :=
  let s := (((ts tk).setReg .wkMbaddr 0 ch 0 (BitVec.ofNat 64 (64 * tl))).setReg .wkMbcmd 0 ch 0
    (BitVec.ofNat 64 (cmd + 256 + len * 2 ^ 16))).setReg .wkMbstat 0 ch 0 1
  { s with wicket := { Wicket.reset with running := true, record := some BootRecord.empty } }
/-- With the first bytes of the buffer. -/
def tBuf (ch cmd len : Nat) (l : List Byte) : State :=
  { tMb ch cmd len with mem := (l.mapIdx (fun i b => (64 * tl + i, b))).filter (fun p => p.2 != 0) }
def tSealed (s : State) : State := { s with wicket := { s.wicket with record := some { BootRecord.empty with isSealed := true } } }
/-- The number of bytes of the buffer read from. -/
def reads (s : State) (ch n : Nat) : Bool :=
  match mbIn s ch n with
  | (u, some l) => l.length == n && !(mbEnd u ch 0 0).stalled
  | _ => false
/-- The bytes of the buffer read as `f` asks. -/
def readsAs (s : State) (ch n : Nat) (f : State → List Byte → Bool) : Bool :=
  match mbIn s ch n with
  | (u, some l) => f u l
  | _ => false

theorem test_wit_Mailbox_info : mbTurn (tMb 1 1 128) 1 1 = true ∧ (mbOut (tMb 1 1 128) 1 ((theRecord (tMb 1 1 128)).header.take 128)).isSome = true ∧
    mbTurn (tMb 1 1 127) 1 1 = true ∧ (mbOut (tMb 1 1 127) 1 ((theRecord (tMb 1 1 127)).header.take 128)).isNone = true := by
  refine ⟨?_, ?_, ?_, ?_⟩ <;> decide +kernel
/-- An event for register `mr` in the buffer. -/
def tEvt (mr : Nat) : State := tBuf 1 2 40 [0, 0x80, byte mr, 0]
def tEvtOk (s : State) (f : State → List Byte → Bool) : Bool := mbTurn s 1 2 && readsAs s 1 40 (fun u l => decide (0x8000 ≤ numAt l 0 2) &&
  decide (numAt l 4 4 ≤ 1024) && readsAs u 1 (eventSize (numAt l 4 4)) (fun w e => f w e && !(mbEnd w 1 0 0).stalled))
theorem test_wit_Mailbox_extend : tEvtOk (tEvt 24) (fun _ e => numAt e 2 1 == 24) = true ∧ tEvtOk (tEvt 7) (fun _ e => numAt e 2 1 == 7) = true ∧
    tEvtOk (tSealed (tEvt 15)) (fun w e => numAt e 2 1 == 15 && (theRecord w).isSealed) = true ∧
    tEvtOk (tEvt 8) (fun w e => numAt e 2 1 == 8 && !(theRecord w).isSealed && (theRecord w).fits (eventSize (numAt e 4 4))) = true ∧
    tEvtOk (tSealed (tEvt 23)) (fun w e => numAt e 2 1 == 23 && (theRecord w).isSealed && (theRecord w).fits (eventSize (numAt e 4 4))) = true ∧
    tEvtOk (tEvt 0xFF) (fun _ e => numAt e 2 1 == 0xFF) = true := by
  refine ⟨?_, ?_, ?_, ?_, ?_, ?_⟩ <;> decide +kernel
theorem test_wit_Mailbox_romCheck : mbTurn (tBuf 0 3 9 [1]) 0 3 = true ∧ reads (tBuf 0 3 9 [1]) 0 (max 8 (mbLen (tBuf 0 3 9 [1]) 0)) = true ∧
    reads (tSealed (tBuf 0 3 9 [1])) 0 9 = true ∧ (theRecord (tMb 0 3 9)).fits (eventSize 8) = true ∧ (theRecord (tSealed (tMb 0 3 9))).fits (eventSize 8) = true ∧
    BootRecord.fits { BootRecord.empty with isSealed := true, rt := copies 32721 0 } (eventSize 8) = false := by
  refine ⟨?_, ?_, ?_, ?_, ?_, ?_⟩ <;> decide +kernel
theorem test_wit_Mailbox_seal : mbTurn (tMb 1 4 0) 1 4 = true ∧ (theRecord (tMb 1 4 0)).isSealed = false ∧ (tMb 1 4 0).wicket.entropyBad = false ∧
    mbTurn (tSealed (tMb 1 4 0)) 1 4 = true ∧ (theRecord (tSealed (tMb 1 4 0))).isSealed = true ∧
    mbTurn { tMb 1 4 0 with wicket := { (tMb 1 4 0).wicket with entropyBad := true, chainDue := true } } 1 4 = true := by
  refine ⟨?_, ?_, ?_, ?_, ?_, ?_⟩ <;> decide +kernel
theorem test_wit_Mailbox_quote : mbTurn (tMb 1 5 17968) 1 5 = true ∧ bufOk (tSealed (tMb 1 5 17968)) 1 17968 = true ∧
    reads (tSealed (tMb 1 5 17968)) 1 32 = true := by
  refine ⟨?_, ?_, ?_⟩ <;> decide +kernel
theorem test_wit_Mailbox_logAndCert : mbTurn (tBuf 0 6 256 [1, 0, 0, 0, 128]) 0 6 = true ∧
    readsAs (tBuf 0 6 256 [1, 0, 0, 0, 128]) 0 8 (fun u l => numAt l 0 4 == 1 && (mbOut u 0 (((theRecord u).rt.drop (numAt l 4 4)).take (mbLen u 0))).isSome) = true ∧
    readsAs (tBuf 0 6 256 [0, 0, 0, 0, 128]) 0 8 (fun u l => numAt l 0 4 == 0 && (mbOut u 0 (((theRecord u).whole.drop (numAt l 4 4)).take (mbLen u 0))).isSome) = true ∧
    readsAs (tBuf 0 6 256 [2]) 0 8 (fun _ l => decide (1 < numAt l 0 4)) = true ∧
    mbTurn (tMb 0 7 7920) 0 7 = true ∧ bufOk (tMb 0 7 7920) 0 7920 = true ∧ (mbOut (tMb 0 7 7920) 0 (tMb 0 7 7920).wicket.cert).isSome = true := by
  refine ⟨?_, ?_, ?_, ?_, ?_, ?_, ?_⟩ <;> decide +kernel

theorem test_wit_Mailbox_end : (tMb 1 1 128).wicket.nonce = none ∧ bitAt ((tMb 1 1 128).setReg .wkMbstat 0 1 0 2 |>.reg .wkMbstat 0 1 0) 1 = true := by
  refine ⟨?_, ?_⟩ <;> decide +kernel
theorem test_wit_Mailbox_keys : mbTurn (tBuf 1 0x20 2 [2]) 1 0x20 = true ∧ mbTurn (tBuf 1 0x21 2 [0xFE, 0x0F]) 1 0x21 = true ∧
    readsAs (tBuf 1 0x20 2 [2]) 1 2 (fun u l => numAt l 0 2 == 2 && lookD 0 u.wicket.gens 2 == 0) = true ∧
    readsAs (tBuf 1 0x21 2 [0xFE, 0x0F]) 1 2 (fun _ l => numAt l 0 2 == 4094) = true ∧
    readsAs (tBuf 1 0x20 2 [0xFF, 0x0F]) 1 2 (fun _ l => numAt l 0 2 == 4095) = true ∧ readsAs (tBuf 1 0x20 2 [0, 0x10]) 1 2 (fun _ l => numAt l 0 2 == 4096) = true ∧
    readsAs { tBuf 1 0x20 2 [2] with wicket := { (tMb 1 0x20 2).wicket with gens := [(2, 65535)] } } 1 2
      (fun u _ => lookD 0 u.wicket.gens 2 == 65535) = true := by
  refine ⟨?_, ?_, ?_, ?_, ?_, ?_, ?_⟩ <;> decide +kernel
theorem length_leBytes (k x : Nat) : (leBytes k x).length = k := by
  induction k generalizing x with
  | zero => rfl
  | succ k ih => simp [leBytes, ih]
theorem length_copies {α : Type} (n : Nat) (v : α) : (copies n v).length = n := List.length_replicate
theorem length_bytesAt (l : List Byte) (a n : Nat) : (bytesAt l a n).length = n := by simp [bytesAt]

theorem flashBytes_writeBytes (f : List Host.Cell) (a n : Nat) (l : List Byte) (h : n ≤ l.length) :
    flashBytes (writeBytes f a l) a n = l.take n := by
  apply List.ext_getElem?
  intro i
  simp only [flashBytes, List.getElem?_map, readByte_writeBytes, List.getElem?_take]
  by_cases hi : i < n
  · rw [List.getElem?_range hi, if_pos hi]
    simp only [Option.map_some, show a ≤ a + i ∧ a + i < a + l.length by omega, if_true, Nat.add_sub_cancel_left, nthD,
      List.getElem?_eq_getElem (show i < l.length by omega), Option.getD_some, and_self]
  · rw [if_neg hi, List.getElem?_eq_none (by simp; omega)]; rfl
theorem length_shaBlocks (k : Nat) (h : List W32) (m : List Byte) (e : h.length = 8) : (shaBlocks k h m).length = 8 := by
  induction k generalizing h m with
  | zero => exact e
  | succ k ih =>
    unfold shaBlocks
    split
    · exact e
    · exact ih _ _ (by simp [shaBlock, e])
theorem length_sha256 (l : List Byte) : (sha256 l).length = 32 := by
  simp [sha256, beBytes, length_leBytes, Function.comp_def, length_shaBlocks _ _ _ (show shaH0.length = 8 from rfl)]
theorem length_hmac (k m : List Byte) : (hmac k m).length = 32 := length_sha256 _


/-- A record of 4096 entries of zeros. -/
@[irreducible] def tFullBytes : List Byte := healthHeadBytes 4096 1 ++ copies 65536 0
/-- The flash of a part that holds it. -/
@[irreducible] def tFullFlash : List Host.Cell := writeBytes [] 0x20000 (tFullBytes ++ hmac (healthKey Wicket.reset.fuses) tFullBytes)
theorem tFull_length : tFullBytes.length = 65568 := by
  simp only [tFullBytes, healthHeadBytes, List.length_append, length_leBytes, length_copies, List.length_cons, List.length_nil]
theorem tFull_bytes (n : Nat) (h : n ≤ 65600) : flashBytes tFullFlash 0x20000 n =
    (tFullBytes ++ hmac (healthKey Wicket.reset.fuses) tFullBytes).take n :=
  by rw [tFullFlash]; exact flashBytes_writeBytes _ _ _ _ (by rw [List.length_append, tFull_length, length_hmac]; exact h)
theorem tFull_one : healthCopy { Wicket.reset with flash := tFullFlash } true = none := by
  have h : flashBytes tFullFlash (healthAt true) 32 = copies 32 0 := by
    apply List.ext_getElem?
    intro i
    simp only [flashBytes, healthAt, tFullFlash, readByte_writeBytes, List.length_append, tFull_length, length_hmac, if_true]
    by_cases hi : i < 32
    · rw [List.getElem?_map, List.getElem?_range hi, copies, List.getElem?_replicate, if_pos hi]
      rw [Option.map_some, if_neg (by omega)]; rfl
    · rw [List.getElem?_eq_none (by simp; omega), List.getElem?_eq_none (by simp [copies]; omega)]
  simp only [healthCopy, h]
  rw [if_pos (by decide +kernel)]
theorem tFull_zero : healthCopy { Wicket.reset with flash := tFullFlash } false =
    some ⟨1, (List.range 4096).map (fun i => entryOf (bytesAt (tFullBytes ++ hmac (healthKey Wicket.reset.fuses) tFullBytes) (32 + 16 * i) 16))⟩ := by
  have h : flashBytes tFullFlash (healthAt false) 32 = healthHeadBytes 4096 1 := by
    rw [show healthAt false = 0x20000 from rfl, tFull_bytes 32 (by omega), tFullBytes, List.append_assoc,
      List.take_append_of_le_length (by decide)]
    rfl
  have m : macOk (healthKey Wicket.reset.fuses) ((flashBytes tFullFlash (healthAt false) 65600).take 65568)
      ((flashBytes tFullFlash (healthAt false) 65600).drop 65568) = true := by
    rw [show healthAt false = 0x20000 from rfl, tFull_bytes 65600 (by omega)]
    rw [List.take_of_length_le (l := tFullBytes ++ _) (by rw [List.length_append, tFull_length, length_hmac])]
    rw [List.take_left' tFull_length, List.drop_left' tFull_length]
    simp [macOk]
  have n8 : numAt (healthHeadBytes 4096 1) 8 4 = 4096 := by decide +kernel
  simp only [healthCopy, h, n8]
  rw [if_neg (by decide +kernel)]
  simp only [show 64 + 16 * 4096 = 65600 from rfl, show 32 + 16 * 4096 = 65568 from rfl]
  rw [if_pos m, show healthAt false = 0x20000 from rfl, tFull_bytes 65600 (by omega),
    List.take_of_length_le (by rw [List.length_append, tFull_length, length_hmac])]
  rw [show numAt (healthHeadBytes 4096 1) 12 8 = 1 by decide +kernel]
theorem newest_left {α : Type} (gen : α → Nat) (x : α) : newest gen (some x) none = some (x, false) := rfl
theorem healthList_left {w : Wicket} {c : HealthCopy} (h0 : healthCopy w false = some c) (h1 : healthCopy w true = none) : healthList w = c.entries := by
  rw [healthList, healthNow, h0, h1, newest_left]; rfl
theorem healthList_full {w : Wicket} {g n : Nat} {f : Nat → HealthEntry} (h0 : healthCopy w false = some ⟨g, (List.range n).map f⟩)
    (h1 : healthCopy w true = none) : n ≤ (healthList w).length := by
  rw [healthList_left h0 h1]; simp
theorem test_wit_Mailbox_health_full : 4096 ≤ (healthList { Wicket.reset with flash := tFullFlash }).length :=
  healthList_full tFull_zero tFull_one
theorem test_wit_Mailbox_health : mbTurn (tBuf 1 0x22 16 [2]) 1 0x22 = true ∧
    readsAs (tBuf 1 0x22 16 [2]) 1 16 (fun u l => (entryOf l).typ == 2 && !(healthList u.wicket).contains (entryOf l) && decide ((healthList u.wicket).length < 4096)) = true ∧
    readsAs (tBuf 1 0x22 16 [4]) 1 16 (fun u l => (entryOf l).typ == 4 && !(healthList u.wicket).contains (entryOf l)) = true ∧
    readsAs (tBuf 1 0x22 16 [5]) 1 16 (fun _ l => decide (4 < (entryOf l).typ.toNat)) = true ∧
    mbTurn (tMb 1 0x23 32) 1 0x23 = true ∧ (mbOut (tMb 1 0x23 32) 1 (healthHeader (tMb 1 0x23 32).wicket ++ healthBytes (tMb 1 0x23 32).wicket)).isSome = true ∧
    mbTurn (tBuf 1 0x24 1 [15]) 1 0x24 = true ∧ readsAs (tBuf 1 0x24 1 [15]) 1 1 (fun _ l => numAt l 0 1 == 15) = true ∧
    readsAs (tBuf 1 0x24 1 [0xFF]) 1 1 (fun _ l => numAt l 0 1 == 0xFF) = true := by
  refine ⟨?_, ?_, ?_, ?_, ?_, ?_, ?_, ?_, ?_⟩ <;> decide +kernel
/-- With a version above the floor of type 5, slot 3 in use, and slots 0 and 1 revoked. -/
def tFuse (s : State) (v : BitVec 4) : State :=
  { s with wicket := { s.wicket with svns := [(5, 64)], slot := 3, fuses := { s.wicket.fuses with floors := [(5, 0xFFFF)], vrevoke := v } } }
theorem test_wit_Mailbox_fuses : mbTurn (tFuse (tBuf 1 0x25 1 [5]) 0) 1 0x25 = true ∧
    readsAs (tFuse (tBuf 1 0x25 1 [5]) 0) 1 1 (fun u l => numAt l 0 1 == 5 && lookD 0 u.wicket.svns 5 == 64 && floorOf u.wicket.fuses 5 == 16) = true ∧
    readsAs (tFuse (tBuf 1 0x25 1 [6]) 0) 1 1 (fun _ l => decide (5 < numAt l 0 1)) = true ∧
    readsAs (tMb 1 0x25 1) 1 1 (fun u l => decide (lookD 0 u.wicket.svns (numAt l 0 1) ≤ floorOf u.wicket.fuses (numAt l 0 1))) = true ∧
    mbTurn (tFuse (tBuf 1 0x26 1 [2]) 3) 1 0x26 = true ∧
    readsAs (tFuse (tBuf 1 0x26 1 [2]) 3) 1 1 (fun u l => numAt l 0 1 == 2 && u.wicket.slot == 3 && !bitAt u.wicket.fuses.vrevoke 2 && setBit u.wicket.fuses.vrevoke 2 true != 15) = true ∧
    readsAs (tFuse (tBuf 1 0x26 1 [2]) 11) 1 1 (fun u l => numAt l 0 1 == 2 && !bitAt u.wicket.fuses.vrevoke 2 && setBit u.wicket.fuses.vrevoke 2 true == 15) = true ∧
    readsAs (tFuse (tBuf 1 0x26 1 [3]) 3) 1 1 (fun u l => numAt l 0 1 == u.wicket.slot) = true ∧
    readsAs (tFuse (tBuf 1 0x26 1 [1]) 3) 1 1 (fun u l => bitAt u.wicket.fuses.vrevoke (numAt l 0 1)) = true ∧
    readsAs (tFuse (tBuf 1 0x26 1 [4]) 3) 1 1 (fun _ l => decide (3 < numAt l 0 1)) = true := by
  refine ⟨?_, ?_, ?_, ?_, ?_, ?_, ?_, ?_, ?_, ?_⟩ <;> decide +kernel
theorem test_wit_Mailbox_other : mbTurn (tBuf 1 0x27 32 [5]) 1 0x27 = true ∧ reads (tBuf 1 0x27 32 [5]) 1 32 = true ∧ (tMb 1 0x27 32).wicket.fuses.okey = 0 ∧
    mbTurn (tMb 1 0x28 0) 1 0x28 = true ∧ warmAllowed (tMb 1 0x28 0) = true ∧ mbTurn (tMb 0 0x20 2) 0 0x20 = true ∧ mbTurn (tMb 0 0x24 2) 0 0x24 = true ∧
    mbTurn (tMb 0 0x28 2) 0 0x28 = true ∧ mbTurn (tMb 1 0x29 0) 1 (mbCmd (tMb 1 0x29 0) 1) = true ∧ knownCmd 1 (mbCmd (tMb 1 0x29 0) 1) = false ∧
    knownCmd 0 (mbCmd (tMb 0 0x20 0) 0) = false ∧ (tMb 0 0x20 2).wicket.running = true := by
  refine ⟨?_, ?_, ?_, ?_, ?_, ?_, ?_, ?_, ?_, ?_, ?_, ?_⟩ <;> decide +kernel

theorem length_mrBytes (r : BootRecord) (n : Nat) : (r.mrBytes n).length = 32 * n := by
  simp only [BootRecord.mrBytes, List.length_flatMap, length_leBytes, List.map_const', List.sum_replicate, List.length_range, smul_eq_mul,
    Nat.mul_comm]
theorem length_signAs (s : State) (c : String) (m : List Byte) : (signAs s c m).2.length = 17088 := by
  simp only [signAs, List.length_take, List.length_append, length_copies]; omega
theorem length_makeQuote (s : State) (r : BootRecord) (n : Nat) (l : List Byte) : (makeQuote s r n l).2.length = 17968 := by
  simp only [makeQuote, List.length_append, length_signAs, quoteHead, length_leBytes, length_bytesAt, length_mrBytes]
/-- A quote in the case above. -/
def tQ (n : List Byte) : State × List Byte := let s := tSealed (tMb 1 5 17968); makeQuote s (theRecord s) 1 n
theorem test_wit_Mailbox_quote_lines : (match bufCheck (tQ []).1 1 17968 true with
    | (s, true) => (writeLines 1 281 (mbAddr s 1 / 64) (tQ []).2 s).isSome
    | (_, false) => false) = true := by decide +kernel
theorem test_wit_Mailbox_quote_buffer : (mbOut (tQ []).1 1 (tQ []).2).isSome = true := by
  have h : (tQ []).2.length = 17968 := by unfold tQ; exact length_makeQuote _ _ _ _
  have w := test_wit_Mailbox_quote_lines
  unfold mbOut
  rw [h]
  revert w
  generalize bufCheck (tQ []).1 1 17968 true = x
  obtain ⟨u, b⟩ := x
  cases b
  · exact fun w => w
  · exact fun w => w

/-! ## Start-up, the router, Louvre -/

/-- Start-up due, and what Wicket finds at it: a self-test that fails, then no directory. -/
def tBoot : State := { ts tk with power := { tp with startDue := true } }
def tIn (ok : Bool) : BootIn :=
  { selfTestOk := ok, flashOk := true, flash := [], sfdpOk := true, railFails := none, slots := [], map := ⟨0, 0, 0, [], 0⟩, chainWritable := true, fillFails := [] }
theorem test_wit_ClockStart_startup : startReady tBoot = true ∧ (bootRom tBoot (tIn false)).isSome = true ∧ (bootRom tBoot (tIn true)).isSome = true ∧
    railFails ⟨4, some (0, [.silent, .silent, .silent, .silent])⟩ = true ∧ directory tBoot.wicket.flash = none := by
  refine ⟨?_, ?_, ?_, ?_, ?_⟩ <;> decide +kernel
/-- Two sources pending, the second of a better PRIO, for core 0; source 256 is virtual. -/
def tSrc : State :=
  let s := (((ts tk).setReg .irtCtl 0 0 0 1).setReg .irtSrc 0 300 0 (3 + 2 ^ 6)).setReg .irtSrc 0 301 0 3
  { s with irt := { s.irt with age := [(300, 0), (301, 1)], next := 2, shown := [(1, 300)] } }
theorem test_wit_RouterCommandsComplete_running : tSrc.frozen = false ∧ tInt.frozen = false := by refine ⟨?_, ?_⟩ <;> decide +kernel
theorem test_wit_RouterCommandsComplete_event : tSrc.stalled = false ∧ tSrc.irt.late = [] ∧ bitAt (tSrc.reg .irtSrc 0 255 0) 1 = false ∧
    bitAt (tSrc.reg .irtSrc 0 300 0) 1 = true ∧ bitAt (tSrc.reg .irtSrc 0 4095 0) 1 = false ∧ bitAt (tSrc.reg .irtSrc 0 4095 0) 4 = false ∧
    mayRaise (tSrc.setReg .oecViint 3 255 0 0x1FFF) 4095 = true ∧ mayRaise tSrc 4095 = false ∧ tSrc.irt.lateRes = [] ∧
    look (tInt.core 0).lage 2 = none := by
  refine ⟨?_, ?_, ?_, ?_, ?_, ?_, ?_, ?_, ?_, ?_⟩ <;> decide +kernel
theorem test_wit_RouterCommandsComplete_slot : routerRuns tSrc = true ∧ choice tSrc 0 1 = some 301 ∧ choice tSrc 0 0 = none ∧
    look tSrc.irt.shown (3 * 0 + 1) = some 300 ∧ look { tSrc.irt with shown := [(1, 301)] }.shown 1 = some 301 ∧ timerHit tInt 0 2 = true := by
  refine ⟨?_, ?_, ?_, ?_, ?_, ?_⟩ <;> decide +kernel
def tNwd (n : Nat) : State := let s := (ts tk).setReg .irtNwdctl 0 0 0 0x10001; { s with irt := { s.irt with nwdStage := n } }
theorem test_wit_RouterCommandsComplete_watchdog : nwdCounts (tNwd 0) 0 = true ∧ nwdCounts (tNwd 1) 1 = true ∧ (tNwd 1).irt.late = [] ∧ (tNwd 0).irt.late = [] ∧ (tNwd 0).frozen = false ∧ (tNwd 1).frozen = false ∧
    bitAt ((tNwd 0).reg .irtSrc 0 6 0) 4 = false ∧ bitAt ((tNwd 1).reg .irtSrc 0 7 0) 4 = false := by
  refine ⟨?_, ?_, ?_, ?_, ?_, ?_, ?_, ?_⟩ <;> decide +kernel

def tLv : State := { ts tk with wicket := { Wicket.reset with running := true } }
/-- A core of tile 0 that follows its target is in the list of cores. -/
theorem test_wit_LouvreCommandsComplete_follows : follows (tLv.core 0) = true ∧ (look tLv.cores 0).isSome = true ∧ dieOf 0 = dieOf (2 * 0) ∧ dieOf 191 ≠ dieOf 0 := by
  refine ⟨?_, ?_, ?_, ?_⟩ <;> decide +kernel
theorem test_wit_LouvreCommandsComplete : louvreOn tLv = true ∧ (tLv.core 0).started = true ∧ tLv.power.errFatal = false ∧ tLv.power.clocks = true ∧ tLv.power.pwrgood = true ∧ bitAt ((tLv.core 0).crBase 9) 14 = false ∧
    startBit (tLv.setReg .lvCorestart 0 2 0 (2 ^ 63)) 191 = true ∧ ((tLv.setReg .lvCorestart 0 2 0 (2 ^ 63)).core 191).started = false ∧
    tileInReset tLv ≠ some 31 ∧ tileInReset (tLv.setReg .lvTilerst 0 0 0 0x15F) = some 95 ∧
    (tileResetCore (tileResetCore (tLv.setReg .lvTilerst 0 0 0 0x15F) 190) 191).stalled = false := by
  refine ⟨?_, ?_, ?_, ?_, ?_, ?_, ?_, ?_, ?_, ?_, ?_⟩ <;> decide +kernel
theorem test_wit_LouvreCommandsComplete_watchdog : let s := (ts tk).setReg .ownSwdctl 0 0 0 0x300030001
    swdCounts s = true ∧ s.stalled = false ∧ s.frozen = false ∧ s.power.pkg = .running ∧ s.irt.late = [] ∧ bitAt (s.reg .irtSrc 0 0 0) 4 = false ∧
    fld (s.reg .ownSwdctl 0 0 0) 16 16 / 2 < fld (s.reg .ownSwdctl 0 0 0) 32 16 ∧ s.power.entering = none := by decide +kernel

/-! ## Root complexes -/

/-- A read or write of one byte of the vault by stream 3 of the root complex above, with the identity mapping. -/
def tReq (w : Bool) : Inbound := ⟨.memory, false, false, 2, 0, 3, 0xE00000010003F, w, 1, [0xAA], [true], false, false, false, none, true⟩
def tIn1 : State := (((tIo tk).setReg .rcIocfg 2 0 0 1).setReg .irtDbaddr 0 0 0 0x1000).setReg .irtSrc 0 4095 0 (0x20 + 2 * 2 ^ 24 + 3 * 2 ^ 32)
theorem test_wit_InboundRequestsComplete : linkUp (tIo tk) 2 3 = false ∧ linkUp tIn1 2 0 = true ∧
    (ideCheck tIn1 (tReq false)) = (tIn1, true) ∧ ((tReq true).addr.toNat / 4096 ≠ doorbellPage tIn1) ∧
    (match streamOwner tIn1 2 3 with
      | (w, some (sec, o)) => match ioTranslate w (.rc 2) 3 sec o 0xE00000010003F false with
        | (z, .ok pa) => !(inboundRead (tReq false) sec o pa [] (linesOf pa 1) z).stalled && !(inboundWrite z (tReq true) pa sec o).stalled
        | _ => false
      | _ => false) = true ∧ (tIn1.rc 2).halted.contains 3 = false := by
  refine ⟨?_, ?_, ?_, ?_, ?_, ?_⟩ <;> decide +kernel
theorem test_wit_InboundRequestsComplete_write : ideCheck tIn1 (tReq true) = (tIn1, true) ∧
    ((List.range 4).foldl (fun z n => checkUnit z 2 n 3 0xE00000010003F [0xAA] [true] false) tIn1) = tIn1 := by
  refine ⟨?_, ?_⟩ <;> decide +kernel
theorem test_wit_InboundRequestsComplete_kinds : (raiseAer tIn1 2 0 aerMalformed).stalled = false ∧ (raiseAer tIn1 2 0 aerEcrc).stalled = false ∧
    (4096 < { tReq false with len := 4097 }.len) ∧ ({ tIn1.rc 2 with halted := [3] } : Rc).halted.contains 3 = true := by
  refine ⟨?_, ?_, ?_, ?_⟩ <;> decide +kernel
theorem test_wit_InboundRequestsComplete_doorbell : linkUp tIn1 2 0 = true ∧ tIn1.rootClock = true ∧ tIn1.stalled = false ∧
    ideCheck tIn1 (doorbellTlp tIn1 2 0 3 4095 none true) = (tIn1, true) ∧
    ((List.range 4).foldl (fun z n => checkUnit z 2 n 3 0x1000 (leBytes 4 4095) [true, true, true, true] false) tIn1) = tIn1 ∧ bitAt (srcOf tIn1 4095) 3 = false ∧
    fld (srcOf tIn1 4095) 24 3 = 2 ∧ fld (srcOf tIn1 4095) 32 16 = 3 ∧ (raiseEvent tIn1 4095).stalled = false ∧ fld (4096 : W32) 12 20 ≠ 0 ∧
    (doorbellTlp tIn1 2 0 3 4095 none true).addr = 0x1000 := by
  refine ⟨?_, ?_, ?_, ?_, ?_, ?_, ?_, ?_, ?_, ?_, ?_⟩ <;> decide +kernel
/-- A device of CXL.mem behind the second root complex. -/
def tCxl : State :=
  ((((((ts tk).setReg .meshWin 132 2 0 (BitVec.ofNat 64 (1 + 2 * 2 + 0x800000000000 / 2 ^ 30 * 2 ^ 22))).setReg .rcCtl 1 0 0 1).setReg .rcHdmlo 1 7 0
    (BitVec.ofNat 64 (1 + 0x800000000000))).setReg .rcHdmhi 1 7 0 1).setReg .rcPortstat 1 0 0 0x802)
theorem test_wit_InboundRequestsComplete_cxl : cxlRc tCxl (64 * (0x800000000000 / 64)) = some 1 ∧ hdmPort tCxl 1 (64 * (0x800000000000 / 64)) = some 0 ∧
    (match targetCheck tCxl (0x800000000000 / 64) false 0 true with
      | (u, .ok (ko, _)) => decide (hdmPort u 1 (64 * (0x800000000000 / 64)) = some 0) && !(raiseAer u 1 0 aerTimeout).stalled &&
          (match cxlReadAt false u 1 (0x800000000000 / 64) ko with
          | (w, _) => !w.stalled && !(cxlWriteAt false w 1 (0x800000000000 / 64) ko 5 0).stalled)
      | _ => false) = true := by
  refine ⟨?_, ?_, ?_⟩ <;> decide +kernel
theorem test_wit_InboundRequestsComplete_cxl_state : tableLocked tCxl = false ∧ tCxl.stalled = false ∧ tCxl.rootClock = true := by
  refine ⟨?_, ?_, ?_⟩ <;> decide +kernel
/-- A port that may train its link. -/
def tUp : State := ((ts tk).setReg .rcPortctl 2 0 0 2).setPort 2 0 { (ts tk).port 2 0 with low := false }
theorem test_wit_PortEventsComplete_running : (tIo tk).stalled = false ∧ (tIo tk).frozen = false ∧ (tIo tk).rootClock = true ∧
    perstPin tUp 2 0 = true ∧ (tIo tk).irt.late = [] := by
  refine ⟨?_, ?_, ?_, ?_, ?_⟩ <;> decide +kernel
theorem test_wit_PortEventsComplete_link : linkUp (tIo tk) 2 0 = true ∧ ((tIo tk).port 2 0).pme = false ∧ bitAt ((tIo tk).reg .irtSrc 0 56 0) 4 = false ∧
    bitAt (tUp.reg .rcPortctl 2 0 0) 1 = true ∧ linkState tUp 2 0 < 2 ∧
    portTrains tUp 2 0 = true ∧ tUp.rootClock = true ∧ linkState (tIo tk) 2 0 = 2 ∧ ((tIo tk).port 2 0).turnOff = false ∧ ((tIo tk).rc 2).out = [] ∧
    linkState ((tIo tk).setReg .rcPortstat 2 0 0 4) 2 0 = 4 := by
  refine ⟨?_, ?_, ?_, ?_, ?_, ?_, ?_, ?_, ?_, ?_, ?_⟩ <;> decide +kernel
/-- A port reset and powered off, with a release pending. -/
def tLow : State := ((tIo tk).setReg .rcPortctl 2 0 0 0x80).setPort 2 0 { (tIo tk).port 2 0 with low := true, perstDue := true, turnOff := true }
theorem test_wit_PortEventsComplete_slot : portExists tLow 2 0 = true ∧ tLow.rootClock = true ∧ tLow.irt.late = [] ∧ bitAt (tLow.reg .irtSrc 0 24 0) 4 = false ∧
    slotChanges 0xF 0xE = 8 ∧ ((tLow.setPort 2 0 { tLow.port 2 0 with misses := 2 }).port 2 0).misses = 2 := by
  refine ⟨?_, ?_, ?_, ?_, ?_, ?_⟩ <;> decide +kernel
theorem test_wit_PortEventsComplete_other : bitAt (tLow.reg .rcPortctl 2 0 0) 7 = true ∧ (tLow.port 2 0).misses < 2 ∧ (tLow.port 2 0).perstDue = true ∧
    bitAt (tLow.reg .rcPortctl 2 0 0) 0 = false ∧ (tLow.port 2 0).turnOff = true ∧ (tLow.port 2 0).inputs = 0xF ∧
    ({ Rc.reset with keyReq := [5] } : Rc).keyReq.contains 5 = true ∧ tLow.stalled = false ∧ tLow.frozen = false := by
  refine ⟨?_, ?_, ?_, ?_, ?_, ?_, ?_, ?_, ?_⟩ <;> decide +kernel

/-! ## The whole machine -/

theorem test_wit_EveryStep : Memory.wf State.reset.mem = true ∧ (∃ t, step State.reset = .next t) ∧
    (∃ t, step { ts tk with pending := [.addi 0 ⟨1, 0, 1⟩] } = .next t ∧ t.pending = []) ∧ ({ State.reset with
      wicket := { Wicket.reset with fuses := { Wicket.reset.fuses with okey := 5, vrevoke := 2 } } }.wicket.fuses.okey ≠ 0) := by
  refine ⟨by decide +kernel, ⟨_, rfl⟩, ⟨_, rfl, rfl⟩, by decide +kernel⟩

/-! ## Clauses with a case of their own -/

/-- Wicket runs, and no access of it is out. -/
def tIoW : State := { tIo tk with wicket := { Wicket.reset with running := true } }
theorem test_wit_OutboundAccesses_units : tIoW.frozen = false ∧ tIoW.rootClock = true ∧ tIoW.wicket.running = true ∧
    regionAt 0xC400000000000 = .pcie 2 ∧ (memAccess tIoW 2 (0xC400000000000 % 2 ^ 45) false).2 = .sent 2 0 ∧
    (memAccess tIoW 2 (0xC400000000000 % 2 ^ 45) true).2 = .value 0 ∧ (look (tIoW.rc 2).svc 192).bind (·.acc) = none ∧
    (look (tIoW.rc 2).svc 193).bind (·.acc) = none := by
  refine ⟨?_, ?_, ?_, ?_, ?_, ?_, ?_, ?_⟩ <;> decide +kernel
theorem test_wit_OutboundAccesses_itself : timesItself (flightAccess tk tFar) = true ∧
    (match leaveCore (fetched (tMem 0xE000000100038) 0 (.onchipAccessTimeout 0 tFar)) 0 tFar with
      | (w, .ok true) => ((w.core 0).out.map timesItself) == some true
      | _ => false) = true := by
  refine ⟨?_, ?_⟩ <;> decide +kernel
/-- Wicket's access that is out under tag 7. -/
def tSvcAcc : OutAcc := ⟨0, .none, 4, 0xC400000000000, 0xC400000000000, false, 0, some 2, 7, false, none⟩
def tSvc : State := (tIo tk).setRc 2 { (tIo tk).rc 2 with out := [⟨7, 192, 0, none⟩], svc := [(192, ⟨some tSvcAcc, none⟩)] }
theorem test_wit_InterruptsAndResponses_unit : tSvc.frozen = false ∧ tSvc.stalled = false ∧
    (tSvc.rc 2).out.find? (fun y => y.tag == 7) = some ⟨7, 192, 0, none⟩ ∧ (look (tSvc.rc 2).svc 192).bind (·.acc) = some tSvcAcc ∧ tSvcAcc.tag = 7 := by
  refine ⟨?_, ?_, ?_, ?_, ?_⟩ <;> decide +kernel

/-- The package asleep with core 0 in Closed. -/
def tAsleepCore : State := { tAsleep with cores := [(0, { tk with run := .closed 7 })] }
theorem test_wit_ClockStartAndWakeEvents_core : sleepReg (tAsleepCore.core 0) = some 7 ∧ (tAsleepCore.core 0).started = true ∧
    wakeEnabled tAsleepCore .timer = true ∧ tAsleepCore.power.entering ≠ some 5 ∧ tAsleepCore.power.memWait = true ∧ tAsleepCore.stalled = false ∧
    tAsleepCore.power.pwrgood = true ∧ (tAsleep.reg .lvAoncmp 0 0 0).toNat ≤ tAsleep.now := by
  refine ⟨?_, ?_, ?_, ?_, ?_, ?_, ?_, ?_⟩ <;> decide +kernel

/-! A flash whose directory lists two images without a body. -/

theorem nthD_eq {α : Type} (d : α) (l : List α) (i : Nat) : nthD d l i = (l[i]?).getD d := by
  unfold nthD; cases l[i]? <;> rfl
/-- A header of an image of a type without a body, for slot 0. -/
def tHead (t : Nat) : List Byte := (leBytes 4 0x48474D49 ++ [1, 0, byte t, 0] ++ copies 24 0) ++ (sha256 [] ++ copies 64 0)
/-- A directory that lists the images of Wicket and Louvre. -/
def tDirHead : List Byte := leBytes 4 0x52494442 ++ [1, 0, 0, 2]
def tDirBody : List Byte := [0, 0, 0, 0] ++ ([0, 0, 0, 0] ++ leBytes 4 528 ++ leBytes 4 7984 ++ copies 4 0) ++
  ([1, 0, 0, 0] ++ leBytes 4 656 ++ leBytes 4 7984 ++ copies 4 0) ++ copies 480 0
/-- CRC-32C with its register evaluated at each byte. -/
def crcRun : W32 → List Byte → W32
  | c, [] => c
  | c, b :: t => match (crcByte c b).toNat with
    | 0 => crcRun 0 t
    | k + 1 => crcRun (BitVec.ofNat 32 (k + 1)) t
theorem crcRun_eq (c : W32) (l : List Byte) : crcRun c l = crcBytes c l := by
  induction l generalizing c with
  | nil => rfl
  | cons b t ih =>
    have e : crcRun c (b :: t) = crcRun (crcByte c b) t := by
      rw [crcRun]
      split
      · next h => rw [show crcByte c b = 0 from BitVec.eq_of_toNat_eq (by rw [h]; rfl)]
      · next k h => rw [show k + 1 = (crcByte c b).toNat from h.symm, BitVec.ofNat_toNat, BitVec.setWidth_eq]
    rw [e, ih]; rfl


/-- The check sum of the directory. -/
def tCrc : Nat := 1851056596
theorem tCrc_eq : (crc32c (tDirHead ++ tDirBody)).toNat = tCrc := by
  rw [crc32c, ← crcRun_eq]; decide +kernel
/-- The directory, and the flash that begins with it. -/
def tDir : List Byte := tDirHead ++ leBytes 4 tCrc ++ tDirBody
def tAll : List Byte := tDir ++ (tHead 0 ++ tHead 1)
def tFlash : List Host.Cell := writeBytes [] 0 tAll
theorem length_tHead (t : Nat) : (tHead t).length = 128 := by
  simp only [tHead, List.length_append, length_leBytes, length_copies, length_sha256, List.length_cons, List.length_nil]
theorem length_tDir : tDir.length = 528 := by decide +kernel
theorem flash_part (l : List Byte) (a n : Nat) (h : a + n ≤ l.length) : flashBytes (writeBytes [] 0 l) a n = (l.drop a).take n := by
  apply List.ext_getElem?
  intro i
  simp only [flashBytes, List.getElem?_map, readByte_writeBytes, List.getElem?_take, List.getElem?_drop]
  by_cases hi : i < n
  · rw [List.getElem?_range hi, if_pos hi]
    simp only [Option.map_some, show 0 ≤ a + i ∧ a + i < 0 + l.length by omega, if_true, Nat.sub_zero, nthD_eq,
      List.getElem?_eq_getElem (show a + i < l.length by omega), Option.getD_some, and_self]
  · rw [if_neg hi, List.getElem?_eq_none (by simp; omega)]; rfl
theorem tFlash_dir : dirCopy tFlash 0 = tDir := by
  rw [dirCopy, tFlash, flash_part _ _ _ (by simp only [tAll, List.length_append, length_tDir, length_tHead]; omega)]
  rw [Nat.mul_zero, List.drop_zero, tAll, List.take_left' length_tDir]
theorem tFlash_head (n : Nat) (h : n < 2) : flashBytes tFlash (528 + 128 * n) 128 = tHead n := by
  rw [tFlash, flash_part _ _ _ (by simp only [tAll, List.length_append, length_tDir, length_tHead]; omega), tAll]
  have : n = 0 ∨ n = 1 := by omega
  rcases this with rfl | rfl
  · rw [List.drop_left' (by rw [length_tDir]), List.take_left' (length_tHead 0)]
  · rw [← List.append_assoc, List.drop_left' (by rw [List.length_append, length_tDir, length_tHead]), List.take_of_length_le (by rw [length_tHead])]
theorem tDir_valid : dirValid tDir = true := by
  have e : bytesAt tDir 0 8 ++ bytesAt tDir 12 516 = tDirHead ++ tDirBody := by decide +kernel
  rw [dirValid, e, tCrc_eq]; decide +kernel
theorem tDirectory : directory tFlash = some tDir := by
  rw [directory, tFlash_dir]; exact List.find?_cons_of_pos tDir_valid
theorem tTries (n : Nat) (h : n < 2) : tries tFlash tDir n = [imageAt tFlash ⟨n, false, 528 + 128 * n, 7984⟩] := by
  have : listed tDir n = [⟨n, false, 528 + 128 * n, 7984⟩] := by
    have : n = 0 ∨ n = 1 := by omega
    rcases this with rfl | rfl <;> decide +kernel
  rw [tries, this]; rfl
theorem tHead_digest (t : Nat) : bytesAt (tHead t) 32 32 = sha256 [] := by
  apply List.ext_getElem?
  intro i
  simp only [bytesAt, List.getElem?_map, nthD_eq]
  by_cases hi : i < 32
  · have l : (leBytes 4 0x48474D49 ++ [1, 0, byte t, 0] ++ copies 24 0).length = 32 := by
      simp only [List.length_append, length_leBytes, length_copies, List.length_cons, List.length_nil]
    rw [List.getElem?_range hi, Option.map_some, tHead, List.getElem?_append_right (by rw [l]; omega), l, Nat.add_sub_cancel_left,
      List.getElem?_append_left (by rw [length_sha256]; omega), List.getElem?_eq_getElem (by rw [length_sha256]; omega), Option.getD_some]
  · rw [List.getElem?_eq_none (by simp; omega), List.getElem?_eq_none (by rw [length_sha256]; omega)]; rfl
/-- An image whose signature verifies passes where its other checks do. -/
theorem imageOk_signed {f : Fuses} {i : Image} {b : List Byte} {k : BitVec 256} (key : slotKey f (imgSlot i) = some k)
    (v : Config.slhVerify k (ascii "Iaton image") (bytesAt i.header 0 128) i.sig = true) (d : bytesAt i.header 32 32 = sha256 b)
    (r : (numAt i.header 0 4 == 0x48474D49 && numAt i.header 4 2 == 1 && numAt i.header 6 1 == i.typ && numAt i.header 10 2 == 0 &&
      numAt i.header 80 48 == 0 && decide (imgLen i ≤ imgLimit i.typ) && decide (imgLen i + 7984 ≤ i.length) && addressesOk i &&
      slotAccepted i.typ (imgSlot i) && decide (floorOf f i.typ ≤ imgSvn i)) = true) :
    imageOk f i b = true := by
  simp only [imageOk, key, v, d, beq_self_eq_true, Bool.and_true]; exact r
/-- Whether an SLH-DSA signature verifies is the one hypothesis that no evaluation settles (log 10). -/
theorem test_wit_ClockStartAndWakeEvents_rail
    (h : ∀ n, n < 2 → Config.slhVerify 0 (ascii "Iaton image") (bytesAt (tHead n) 0 128)
      (imageAt tFlash ⟨n, false, 528 + 128 * n, 7984⟩).sig = true) :
    directory tFlash = some tDir ∧ ∀ n, n < 2 → (tries tFlash tDir n).any (fun i => imageOk Wicket.reset.fuses i (imgBody i)) = true := by
  refine ⟨tDirectory, fun n hn => ?_⟩
  rw [tTries n hn, List.any_cons, List.any_nil, Bool.or_false]
  have e : (imageAt tFlash ⟨n, false, 528 + 128 * n, 7984⟩).header = tHead n := by
    rw [imageAt]; exact tFlash_head n hn
  have b : imgBody (imageAt tFlash ⟨n, false, 528 + 128 * n, 7984⟩) = [] := by
    simp only [imgBody, imageAt, tFlash_head n hn]
    have : n = 0 ∨ n = 1 := by omega
    have z : min (numAt (tHead n) 12 4) (imgLimit n) = 0 := by rcases this with rfl | rfl <;> decide +kernel
    rw [z]; rfl
  have v := h n hn
  rw [← e] at v
  have p : slotKey Wicket.reset.fuses (imgSlot (imageAt tFlash ⟨n, false, 528 + 128 * n, 7984⟩)) = some 0 := by
    rw [imgSlot, e]
    have : n = 0 ∨ n = 1 := by omega
    rcases this with rfl | rfl <;> decide +kernel
  refine imageOk_signed p v (by rw [e, b, tHead_digest]) ?_
  simp only [imgLen, imgSlot, imgSvn, addressesOk, imgLoad, imgEntry, e]
  have : n = 0 ∨ n = 1 := by omega
  rcases this with rfl | rfl <;> decide +kernel

/-- A raise under way whose regulator has shut down, and one whose die's rail has moved. -/
theorem test_wit_VoltageLinkCommands_raise : (({ (tLink true) with power := { (tLink true).power with
      vrs := [(0, { Vr.off with enabled := true, code := 110, sticky := 4 })] } } : State).vr 0).shutdown = true ∧
    ((tLink true).core 0).raising = true ∧ (look (tLink true).cores 0).isSome = true ∧ dieOf 0 = 0 := by
  refine ⟨?_, ?_, ?_, ?_⟩ <;> decide +kernel
/-- The raise to try again, on a rail that a firmware frame has since brought up. -/
def tRetryUp : State := { tRetry with power := { tRetry.power with raises := [(0, ⟨false, 120, 200, true, 1⟩)] } }
theorem test_wit_VoltageLinkCommands_stands : wantsRaise tRetryUp 0 = true ∧ (tRetryUp.raise 0).busy = false ∧ (tRetryUp.raise 0).retry = true ∧
    linkOn tRetryUp = true ∧ tRetryUp.power.clocks = true ∧
    (let q (s : State) : State := (dieCores s 0).foldl (fun s c => if follows (s.core c) ∧ (s.core c).goal < (s.core c).cur
        then s.setCore c { s.core c with raising := true } else s) s
     dieNeed (q tRetryUp) 0 ≤ railStands tRetryUp 0 ∧ railStands tRetry 0 < dieNeed (q tRetry) 0) := by
  refine ⟨?_, ?_, ?_, ?_, ?_, ?_, ?_⟩ <;> decide +kernel

/-- The part with GPIO 15 and WAKE_N enabled to wake, and core 0 entering a package state or not. -/
def tPins (e : Bool) : State :=
  let s := ((tLink true).setReg .lvGpiowake 0 0 0 0x8000).setReg .lvPkgcfg 0 0 0 0x200
  { s with power := { s.power with entering := if e then some 0 else none },
           cores := [(0, if e then { tk with run := .entering 3 4 7 } else tk)] }
theorem test_wit_PinsAndManagement_wake : bitAt ((tPins false).reg .lvGpiowake 0 0 0) 15 = true ∧ (tPins true).stalled = false ∧
    (tPins false).power.errFatal = false ∧ (tPins true).power.pkg = .running ∧ (tPins false).power.entering = none ∧
    (tPins true).power.entering = some 0 ∧ bitAt (tPins true).power.gpio 15 = false ∧ bitAt ((tPins true).reg .lvPkgcfg 0 0 0) 9 = true ∧
    bitAt ((tPins true).reg .irtSrc 0 5 0) 4 = false ∧ (tPins true).irt.late = [] ∧
    (abortEntry (noteWake ((tPins true).raiseSource 5) .wakeN) 0 0x12).stalled = false := by
  refine ⟨?_, ?_, ?_, ?_, ?_, ?_, ?_, ?_, ?_, ?_, ?_⟩ <;> decide +kernel
theorem test_wit_PinsAndManagement_status : (tLink true).power.vaon = true ∧ (tLink true).power.pkg = .running ∧ wicketUp (tLink true) = true := by
  refine ⟨?_, ?_, ?_⟩ <;> decide +kernel

/-- A line of the vault that waits in the writeback buffer, its request unsent. -/
def tUnsent : State := ts { tk with wbb := [(tl, (⟨5, 0, 0, 0, 0⟩, true))] }
theorem test_wit_HomeRequestsComplete_unsent : unsent tUnsent 0 tl = true ∧ unsent (ts tk) 0 tl = false ∧
    (let s := { ts tk with homeq := [⟨5, tl, .readShared, tId⟩] }
     let w := (s.event 0 0x012 1).onCore 0 (fun k => { k with asks := put k.asks tl .d })
     lineBusy w tl = false ∧ queued w tl = true ∧
       (serveNext { w with homeq := w.homeq ++ [⟨0, tl, .readShared, identOf w 0⟩] } tl).stalled = false) ∧
    stopHolds ((tRegul.event 0 0x012 1).onCore 0 (fun k => { k with asks := put k.asks 0 .d })) 0 = true ∧
    sendB (tRegul.setReg .meshWin 132 0 0 3) 0 .readShared = true := by
  refine ⟨?_, ?_, ⟨?_, ?_, ?_⟩, ?_, ?_⟩ <;> decide +kernel

/-- A core that holds one line in S and others modified, of the vault and of DRAM; the S line's home busy or not. -/
def tLeave (busy : Bool) : State :=
  let x (st : Moesi) : L2Line := ⟨st, ⟨5, 0, 0, 0, 0⟩, false, false, false, 0, 0, false⟩
  { ts { tk with l2 := [(tl, x .s), (tl + 1, x .m), (77, x .m)] } with
    dirs := [(tl, ⟨1, none, 0⟩)], txns := if busy then [(tl, ⟨5, .readUnique, [], none, false, 0, 1, tId⟩)] else [] }
theorem test_wit_CoherenceMessages_leave : mayLeave (tLeave true) 0 tl = true ∧ outstanding (tLeave true) 0 tl = false ∧ lineBusy (tLeave true) tl = true ∧
    lineBusy (tLeave false) tl = false ∧ (tLeave true).stalled = false ∧ (tLeave true).frozen = false ∧ (tLeave true).power.memWait = false ∧
    (look ((tLeave true).core 0).l2 tl).map L2Line.st = some .s ∧ look ((tLeave true).core 0).wbb tl = none ∧ (tLeave true).homeq = [] := by
  refine ⟨?_, ?_, ?_, ?_, ?_, ?_, ?_, ?_, ?_, ?_⟩ <;> decide +kernel
/-- The writeback of a line, once in the buffer. -/
def tBack (s : State) (l : Nat) : State :=
  let z := s.event 0 0x012 1
  z.setCore 0 { z.core 0 with l2 := del (z.core 0).l2 l, wbb := put (z.core 0).wbb l (⟨5, 0, 0, 0, 0⟩, true) }
/-- The part with its stop regulated and eight victims of the slice of line 77 waiting. -/
def tFullSlice : State :=
  { tLeave false with
    llc := (List.range 16).map (fun w => (llcKey 77 w, ⟨77 + 98304 * 2048 * (w + 1), ⟨5, 0, 0, 0, 0⟩, true, false, false⟩)),
    victims := (List.range 8).map (fun i => ⟨sliceOf 77, 0x100000 + i, ⟨5, 0, 0, 0, 0⟩, i, none⟩) }
theorem test_wit_CoherenceMessages_back : mayLeave (tLeave false) 0 77 = true ∧ outstanding (tLeave false) 0 77 = false ∧
    (look ((tLeave false).core 0).l2 77).map L2Line.st = some .m ∧ chargedLine 77 = true ∧ chargedLine (tl + 1) = false ∧
    stopHolds (tBack (tLeave false) 77) 0 = false ∧
    stopHolds (tBack (((tLeave false).setReg .meshMemreg 0 0 0 1).setReg .meshMemtok 0 0 0 0) 77) 0 = true ∧
    lineBusy (tBack (tLeave false) (tl + 1)) (tl + 1) = false ∧ allocWaits (tBack (tLeave false) (tl + 1)) (tl + 1) 0 = false ∧
    (look ((tLeave false).core 0).l2 (tl + 1)).map L2Line.st = some .m := by
  refine ⟨?_, ?_, ?_, ?_, ?_, ?_, ?_, ?_, ?_, ?_⟩ <;> decide +kernel
theorem test_wit_CoherenceMessages_waits : lineBusy (tBack tFullSlice 77) 77 = false ∧ allocWaits (tBack tFullSlice 77) 77 (qosOf (tBack tFullSlice 77) 0) = true ∧
    backWaits tFullSlice ⟨0, 77, .back, tId⟩ = true ∧ backWaits tMisc ⟨0, tl + 7, .readShared, tId⟩ = false ∧
    queueFull { tMisc with homeq := List.replicate 32 ⟨5, tl + 7, .readShared, tId⟩ } (tl + 7) = true ∧
    (homeStart (takeToken { tMisc with heldReqs := [] } 0) ⟨0, tl + 7, .readShared, tId⟩).stalled = false := by
  refine ⟨?_, ?_, ?_, ?_, ?_, ?_⟩ <;> decide +kernel

theorem test_wit_Mailbox_quote_place : (bufCheck (tSealed (tMb 1 5 17968)) 1 17968 true).2 = true := by decide +kernel
theorem test_wit_MeshAndUpsetEvents_window : (let s := { (ts tk).setReg .pmWincfg 12 0 0 3 with power := { tp with time := 1200 } }
    s.frozen = false ∧ bitAt (s.reg .pmWincfg 12 0 0) 0 = true ∧ s.now % (s.regF .pmWincfg 12 0 0 1 14 * 1200) = 0 ∧
      s.reg .pmWinend 12 0 0 ≠ BitVec.ofNat 64 s.now) ∧ memoryStop 12 = false := by
  refine ⟨⟨?_, ?_, ?_, ?_⟩, ?_⟩ <;> decide +kernel
theorem test_wit_MeshAndUpsetEvents_supplied : supplied (ts tk) ∧ ¬ supplied { ts tk with power := { tp with pwrgood := false } } := by
  refine ⟨⟨by decide +kernel, by decide +kernel, by decide +kernel⟩, fun h => ?_⟩
  exact absurd h.2.1 (by decide +kernel)
theorem test_wit_ControllerEvents_debt : ([1, 2, 3] ++ [(0 : Fin 4).val]).length < 16 ∧ 16 ≤ ((List.replicate 15 (1 : Nat)) ++ [(3 : Fin 4).val]).length ∧
    ({ (tDram.mc 3) with debt := [(5, List.replicate 15 1)] } : Mc).debt = [(5, List.replicate 15 1)] := by decide
theorem test_wit_ControllerEvents_lap : ((portLine 3 98304 0).isSome && (portLine 3 98304 98304).isNone) = true := by decide +kernel

end Sys2Proof.Machine
end

section
/-! PROOFS. When control register writes take effect, and the two banks (R53, R57, R58). A class D write keeps or fixes each bit of its
register, so its entry may be laid over whatever the register holds when the window ends. Registers take their pending writes apart from
each other, so each is followed alone, as a fold over the entries of its own. Counting, which every retirement does, touches counters
only. -/

namespace Sys2Proof.Machine

/-! ## Writes bit by bit (R6) -/

/-- A function of a word that keeps some bits (those of `a`, outside `b`) and fixes the others. -/
def KeepsOrFixes (f : W64 → W64) : Prop := ∃ a b : W64, ∀ x, f x = (x &&& a) ||| b

theorem keepsOrFixes_id : KeepsOrFixes (fun x => x) := ⟨BitVec.allOnes 64, 0#64, fun x => by rw [BitVec.and_allOnes, BitVec.or_zero]⟩

theorem keepsOrFixes_const (c : W64) : KeepsOrFixes (fun _ => c) := ⟨0#64, c, fun x => by simp⟩

theorem KeepsOrFixes.comp {f g : W64 → W64} (hg : KeepsOrFixes g) (hf : KeepsOrFixes f) : KeepsOrFixes (g ∘ f) := by
  obtain ⟨a, b, hf⟩ := hf
  obtain ⟨a', b', hg⟩ := hg
  refine ⟨a &&& a', (b &&& a') ||| b', fun x => ?_⟩
  ext i hi
  simp only [Function.comp_apply, hg, hf, BitVec.getElem_or, BitVec.getElem_and, Bool.and_or_distrib_right, Bool.and_assoc, Bool.or_assoc]

/-- The bits such a function keeps are those on which its answers for all zeros and all ones differ; the others it sets alike. -/
theorem KeepsOrFixes.merge {f : W64 → W64} (hf : KeepsOrFixes f) (x y : W64) :
    (x &&& (f 0 ^^^ f (BitVec.allOnes 64))) ||| (f y &&& ~~~(f 0 ^^^ f (BitVec.allOnes 64))) = f x := by
  obtain ⟨a, b, hf⟩ := hf
  ext i hi
  simp only [hf, BitVec.getElem_or, BitVec.getElem_and, BitVec.getElem_not, BitVec.getElem_xor, BitVec.getElem_allOnes]
  cases x[i] <;> cases y[i] <;> cases a[i] <;> cases b[i] <;> simp

theorem getElem_setFld {n : Nat} (x : BitVec n) (lo w v i : Nat) (hi : i < n) :
    (setFld x lo w v)[i] = if lo ≤ i ∧ i < lo + w then v.testBit (i - lo) else x[i] := by
  simp only [← BitVec.getLsbD_eq_getElem, setFld, BitVec.getLsbD_or, BitVec.getLsbD_and, BitVec.getLsbD_not, BitVec.getLsbD_shiftLeft,
    BitVec.getLsbD_ofNat, Nat.testBit_mod_two_pow, Nat.testBit_two_pow_sub_one, hi, show i - lo < n by omega, decide_true, Bool.true_and]
  by_cases hl : i < lo
  · simp [hl, show ¬ lo ≤ i by omega]
  · by_cases hw : i - lo < w
    · simp [hl, hw, show lo ≤ i ∧ i < lo + w by omega]
    · simp [hl, hw, show ¬ (lo ≤ i ∧ i < lo + w) by omega]

theorem testBit_fld {n : Nat} (x : BitVec n) (lo w j : Nat) : (fld x lo w).testBit j = (decide (j < w) && x.getLsbD (lo + j)) := by
  simp [fld, Nat.testBit_mod_two_pow, Nat.testBit_shiftRight, BitVec.getLsbD]

/-- Bit `i` of a word is bit `i - lo` of a field that holds it. -/
theorem testBit_fld_sub {n : Nat} (x : BitVec n) {lo w i : Nat} (hi : i < n) (h : lo ≤ i ∧ i < lo + w) :
    (fld x lo w).testBit (i - lo) = x[i] := by
  rw [testBit_fld, show lo + (i - lo) = i by omega, decide_eq_true (by omega : i - lo < w), Bool.true_and, BitVec.getLsbD_eq_getElem hi]

theorem keepsOrFixes_setFld (lo w v : Nat) : KeepsOrFixes (fun x => setFld x lo w v) :=
  ⟨~~~(BitVec.ofNat 64 (2 ^ w - 1) <<< lo), BitVec.ofNat 64 (v % 2 ^ w) <<< lo, fun _ => rfl⟩

/-- Bits of a field cleared. -/
theorem keepsOrFixes_landFld (lo w c : Nat) : KeepsOrFixes (fun x => setFld x lo w (Nat.land (fld x lo w) c)) := by
  refine ⟨setFld (BitVec.allOnes 64) lo w c, 0#64, fun x => BitVec.eq_of_getElem_eq fun i hi => ?_⟩
  have hl : (Nat.land (fld x lo w) c).testBit (i - lo) = ((fld x lo w).testBit (i - lo) && c.testBit (i - lo)) := Nat.testBit_and ..
  rw [BitVec.or_zero, BitVec.getElem_and, getElem_setFld, getElem_setFld, hl]
  split
  case isTrue h => rw [testBit_fld_sub x hi h]
  case isFalse => rw [BitVec.getElem_allOnes, Bool.and_true]

/-- Bits of a field set. -/
theorem keepsOrFixes_lorFld (lo w c : Nat) : KeepsOrFixes (fun x => setFld x lo w (Nat.lor (fld x lo w) c)) := by
  refine ⟨BitVec.allOnes 64, setFld 0#64 lo w c, fun x => BitVec.eq_of_getElem_eq fun i hi => ?_⟩
  have hl : (Nat.lor (fld x lo w) c).testBit (i - lo) = ((fld x lo w).testBit (i - lo) || c.testBit (i - lo)) := Nat.testBit_or ..
  rw [BitVec.and_allOnes, BitVec.getElem_or, getElem_setFld, getElem_setFld, hl]
  split
  case isTrue h => rw [testBit_fld_sub x hi h]
  case isFalse => rw [BitVec.getElem_zero, Bool.or_false]

/-- A field put back as it was. -/
theorem KeepsOrFixes.restoreFld {f : W64 → W64} (hf : KeepsOrFixes f) (lo w : Nat) :
    KeepsOrFixes (fun x => setFld (f x) lo w (fld x lo w)) := by
  obtain ⟨a, b, hf⟩ := hf
  refine ⟨setFld a lo w (2 ^ w - 1), setFld b lo w 0, fun x => BitVec.eq_of_getElem_eq fun i hi => ?_⟩
  rw [BitVec.getElem_or, BitVec.getElem_and, getElem_setFld, getElem_setFld, getElem_setFld]
  split
  case isTrue h =>
    rw [testBit_fld_sub x hi h, Nat.testBit_two_pow_sub_one, Nat.zero_testBit, decide_eq_true (by omega : i - lo < w), Bool.and_true,
      Bool.or_false]
  case isFalse => rw [hf, BitVec.getElem_or, BitVec.getElem_and]

theorem keepsOrFixes_foldl {α : Type} (f : W64 → α → W64) (h : ∀ y, KeepsOrFixes (fun x => f x y)) (l : List α) :
    KeepsOrFixes (fun x => l.foldl f x) := by
  induction l with
  | nil => exact keepsOrFixes_id
  | cons y l ih => exact ih.comp (h y)

/-- A write of a field, by each access code. -/
theorem keepsOrFixes_write (f : Field) (v : W64) : KeepsOrFixes (fun old => f.write old v) := by
  unfold Field.write
  cases f.acc with
  | rw =>
    dsimp only
    split
    · exact keepsOrFixes_setFld ..
    · exact keepsOrFixes_id
  | w1c => exact keepsOrFixes_landFld ..
  | w1s => exact keepsOrFixes_lorFld ..
  | ro | wo | rc => exact keepsOrFixes_id

/-- What a CRW leaves depends on the old value bit by bit, by any level, register and value. -/
theorem keepsOrFixes_crWritten (k : Core) (d : CrDef) (n : Nat) (v : W64) : KeepsOrFixes (fun old => crWritten k d n old v) := by
  have hw : KeepsOrFixes (fun old => d.fields.foldl (fun acc f => f.write acc v) old) :=
    keepsOrFixes_foldl _ (fun f => keepsOrFixes_write f v) _
  unfold crWritten
  split
  · exact keepsOrFixes_id
  · split
    · exact keepsOrFixes_const _
    · dsimp only
      split
      · exact hw.restoreFld 0 10
      · split
        · exact hw.restoreFld 0 10
        · exact hw

theorem crBase_of_cr {k q : Core} (h : q.cr = k.cr) (m : Nat) : q.crBase m = k.crBase m := by unfold Core.crBase; rw [h]

/-! ## Cores whose control registers agree -/

/-- Two cores agree on their control registers, their status and the writes pending. -/
def SameCrs (k q : Core) : Prop := q.cr = k.cr ∧ q.status = k.status ∧ q.pendD = k.pendD ∧ q.pendS = k.pendS

theorem SameCrs.refl (k : Core) : SameCrs k k := ⟨rfl, rfl, rfl, rfl⟩

theorem SameCrs.symm {k q : Core} (h : SameCrs k q) : SameCrs q k := by
  obtain ⟨hc, hs, hd, hp⟩ := h
  exact ⟨hc.symm, hs.symm, hd.symm, hp.symm⟩

theorem SameCrs.trans {k q r : Core} (h : SameCrs k q) (h' : SameCrs q r) : SameCrs k r := by
  obtain ⟨hc, hs, hd, hp⟩ := h
  obtain ⟨hc', hs', hd', hp'⟩ := h'
  exact ⟨hc'.trans hc, hs'.trans hs, hd'.trans hd, hp'.trans hp⟩

theorem SameCrs.crBase {k q : Core} (h : SameCrs k q) (m : Nat) : q.crBase m = k.crBase m := crBase_of_cr h.1 m

theorem SameCrs.pendS {k q : Core} (h : SameCrs k q) : q.pendS = k.pendS := h.2.2.2

theorem SameCrs.owner {k q : Core} (h : SameCrs k q) : q.owner = k.owner := congrArg (BitVec.setWidth 12) (h.crBase 0x310)

theorem SameCrs.secure {k q : Core} (h : SameCrs k q) : q.secure = k.secure := congrArg (fun x => bitAt x 2) h.2.1

theorem SameCrs.pl {k q : Core} (h : SameCrs k q) : q.pl = k.pl := congrArg (fun x => fld x 0 2) h.2.1

theorem SameCrs.crPut {k q : Core} (h : SameCrs k q) (n : Nat) (v : W64) : SameCrs (k.crPut n v) (q.crPut n v) := by
  obtain ⟨hc, hs, hd, hp⟩ := h
  exact ⟨congrArg (fun t => put t n v) hc, hs, hd, hp⟩

theorem predClear_sameCrs (k : Core) : SameCrs k k.predClear := ⟨rfl, rfl, rfl, rfl⟩

/-- A casement write removes translations only. -/
theorem casementDrop_sameCrs (k : Core) (n : Nat) : SameCrs k (k.casementDrop n) := by
  unfold Core.casementDrop Core.markedDrop
  split
  · exact ⟨rfl, rfl, rfl, rfl⟩
  · split
    · exact ⟨rfl, rfl, rfl, rfl⟩
    · split
      · exact ⟨rfl, rfl, rfl, rfl⟩
      · exact .refl k

theorem SameCrs.applyD {k q : Core} (h : SameCrs k q) (p : PendD) : SameCrs (k.applyD p) (q.applyD p) := by
  unfold Core.applyD
  split
  · obtain ⟨hc, hs, hd, hp⟩ := h
    exact ⟨hc, congrArg (fun x => setBit x 4 (bitAt p.val 4)) hs, hd, hp⟩
  · split
    · rw [h.crBase, h.crBase, h.owner, h.secure, h.pl]
      exact (h.crPut _ _).crPut _ _
    · rw [h.crBase]
      exact h.crPut _ _

/-- A class S write, of CR.CLKSEL apart, puts its value in its register and touches no other control register. -/
theorem applyS_sameCrs (k : Core) (p : Nat × W64) (hp : p.1 ≠ 0x211) : SameCrs (k.crPut p.1 p.2) (k.applyS true p) := by
  rw [Core.applyS, if_neg hp]
  dsimp only
  split
  · exact (casementDrop_sameCrs _ _).trans (predClear_sameCrs _)
  · exact casementDrop_sameCrs _ _

theorem applyS_clksel (k : Core) (p : Nat × W64) (hp : p.1 = 0x211) :
    k.applyS true p = k.crPut 0x211 (setBit (k.crBase 0x211) 0 (bitAt p.2 0)) := by
  rw [Core.applyS, if_pos hp, if_pos rfl]

theorem SameCrs.applyS {k q : Core} (h : SameCrs k q) (p : Nat × W64) : SameCrs (k.applyS true p) (q.applyS true p) := by
  by_cases hp : p.1 = 0x211
  · rw [applyS_clksel k p hp, applyS_clksel q p hp, h.crBase]
    exact h.crPut _ _
  · exact (applyS_sameCrs k p hp).symm.trans ((h.crPut _ _).trans (applyS_sameCrs q p hp))

/-- What the pending writes leave rests on no more than the control registers, the status and those writes. -/
theorem SameCrs.applyAll {k q : Core} (h : SameCrs k q) : SameCrs (k.applyAll true) (q.applyAll true) := by
  obtain ⟨hc, hs, hd, hp⟩ := h
  unfold Core.applyAll
  rw [hd, hp]
  exact List.foldl_rel (List.foldl_rel ⟨hc, hs, rfl, rfl⟩ fun p _ a b hab => hab.applyD p) fun p _ a b hab => hab.applyS p

/-! ## What a pending write does to the value of one register -/

/-- The value of register `m` past a class D write. -/
def afterD (m : Nat) (v : W64) (p : PendD) : W64 := if p.num = m then p.over v else v

/-- The value of register `m` past a class S write that takes effect at a CTLSYNC: of CR.CLKSEL only SRC changes (R40). -/
def afterS (m : Nat) (v : W64) (p : Nat × W64) : W64 :=
  if p.1 = m then (if m = 0x211 then setBit v 0 (bitAt p.2 0) else p.2) else v

@[simp] theorem Core.applyD_pendD (k : Core) (p : PendD) : (k.applyD p).pendD = k.pendD := by
  unfold Core.applyD; split <;> [rfl; split <;> rfl]
@[simp] theorem Core.applyD_pendS (k : Core) (p : PendD) : (k.applyD p).pendS = k.pendS := by
  unfold Core.applyD; split <;> [rfl; split <;> rfl]

/-- A class D write changes its register alone, those of CR.STATUS and CR.SMPBASE apart. -/
theorem crBase_applyD_plain (k : Core) (p : PendD) (h0 : p.num ≠ 0) (ha : p.num ≠ 0xA1) (m : Nat) :
    (k.applyD p).crBase m = afterD m (k.crBase m) p := by
  rw [Core.applyD, if_neg h0, if_neg ha, crBase_crPut, afterD]
  by_cases h : p.num = m
  · rw [if_pos h.symm, if_pos h, h]
  · rw [if_neg (Ne.symm h), if_neg h]

/-- Beside CR.SMPBASE, whose write captures the writer in CR.SMPSTAT (R470), a register changes by its own writes only. -/
theorem crBase_applyD (k : Core) (p : PendD) {m : Nat} (h0 : m ≠ 0) (ha : m ≠ 0xA1) (hb : m ≠ 0xA3) :
    (k.applyD p).crBase m = afterD m (k.crBase m) p := by
  by_cases z : p.num = 0
  · rw [Core.applyD, if_pos z, afterD, if_neg (z.trans_ne h0.symm)]; rfl
  · by_cases a : p.num = 0xA1
    · rw [Core.applyD, if_neg z, if_pos a, crBase_crPut, crBase_crPut, if_neg hb, if_neg ha, afterD, if_neg (a.trans_ne ha.symm)]
    · exact crBase_applyD_plain k p z a m

theorem crBase_applyS (k : Core) (p : Nat × W64) (m : Nat) : (k.applyS true p).crBase m = afterS m (k.crBase m) p := by
  unfold afterS
  by_cases hp : p.1 = 0x211
  · rw [applyS_clksel k p hp, crBase_crPut, hp]
    by_cases hm : m = 0x211
    · rw [if_pos hm, if_pos hm.symm, if_pos hm, hm]
    · rw [if_neg hm, if_neg (Ne.symm hm)]
  · rw [(applyS_sameCrs k p hp).crBase, crBase_crPut]
    by_cases hm : p.1 = m
    · rw [if_pos hm.symm, if_pos hm, if_neg (hm ▸ hp)]
    · rw [if_neg (Ne.symm hm), if_neg hm]

theorem pendS_applyS (k : Core) (p : Nat × W64) : (k.applyS true p).pendS = k.pendS := by
  by_cases hp : p.1 = 0x211
  · rw [applyS_clksel k p hp]; rfl
  · exact (applyS_sameCrs k p hp).pendS

theorem crBase_foldl_applyD (l : List PendD) (k : Core) {m : Nat} (h0 : m ≠ 0) (ha : m ≠ 0xA1) (hb : m ≠ 0xA3) :
    (l.foldl Core.applyD k).crBase m = l.foldl (afterD m) (k.crBase m) := by
  induction l generalizing k with
  | nil => rfl
  | cons p l ih => rw [List.foldl_cons, ih, crBase_applyD k p h0 ha hb, List.foldl_cons]

theorem crBase_foldl_applyS (l : List (Nat × W64)) (k : Core) (m : Nat) :
    (l.foldl (Core.applyS true) k).crBase m = l.foldl (afterS m) (k.crBase m) := by
  induction l generalizing k with
  | nil => rfl
  | cons p l ih => rw [List.foldl_cons, ih, crBase_applyS, List.foldl_cons]

theorem pendS_foldl_applyS (l : List (Nat × W64)) (k : Core) : (l.foldl (Core.applyS true) k).pendS = k.pendS := by
  induction l generalizing k with
  | nil => rfl
  | cons p l ih => rw [List.foldl_cons, ih, pendS_applyS]

theorem pendS_foldl_applyD (l : List PendD) (k : Core) : (l.foldl Core.applyD k).pendS = k.pendS := by
  induction l generalizing k with
  | nil => rfl
  | cons p l ih => rw [List.foldl_cons, ih, Core.applyD_pendS]

/-- At a CTLSYNC a register takes its pending writes in program order, those of class D first. -/
theorem crBase_applyAll (k : Core) {m : Nat} (h0 : m ≠ 0) (ha : m ≠ 0xA1) (hb : m ≠ 0xA3) :
    (k.applyAll true).crBase m = k.pendS.foldl (afterS m) (k.pendD.foldl (afterD m) (k.crBase m)) := by
  unfold Core.applyAll
  rw [crBase_foldl_applyS, crBase_foldl_applyD _ _ h0 ha hb]
  rfl

theorem crBase_applyAll_of_pendD_nil {k : Core} (h : k.pendD = []) (m : Nat) :
    (k.applyAll true).crBase m = k.pendS.foldl (afterS m) (k.crBase m) := by
  unfold Core.applyAll
  rw [crBase_foldl_applyS, h]
  rfl

/-- A CTLSYNC leaves no class S write pending. -/
theorem applyAll_pendS (k : Core) : (k.applyAll true).pendS = [] := by
  unfold Core.applyAll
  rw [pendS_foldl_applyS, pendS_foldl_applyD]

/-! ## Reads of a register with writes pending -/

theorem crEff_of_pendD_nil {k : Core} (h : k.pendD = []) (m : Nat) : k.crEff m = k.crBase m := by rw [Core.crEff, h]; rfl

/-- A write in its window shows the old value or the new one, whole (R57). -/
theorem crEff_of_pendD_single {k : Core} {p : PendD} (h : k.pendD = [p]) :
    k.crEff p.num = k.crBase p.num ∨ k.crEff p.num = p.over (k.crBase p.num) := by
  rw [Core.crEff, h, List.foldl_cons, List.foldl_nil]
  split
  · exact .inr rfl
  · exact .inl rfl

/-! ## A control register write enters the pending writes (R57, R58) -/

/-- The entry that a class D write makes. -/
def pendDOf (k : Core) (d : CrDef) (use n : Nat) (v : W64) : PendD :=
  ⟨crKey n k.secure, crWritten k d n (k.crLast (crKey n k.secure)) v,
    crWritten k d n 0 v ^^^ crWritten k d n (BitVec.allOnes 64) v, 8, use⟩

/-- Taking effect over any old value, the entry leaves what a write of that old value leaves. -/
theorem pendDOf_over (k : Core) (d : CrDef) (use n : Nat) (v old : W64) : (pendDOf k d use n v).over old = crWritten k d n old v :=
  (keepsOrFixes_crWritten k d n v).merge old _

@[simp] theorem Core.crWrite_cr (k : Core) (use n : Nat) (v : W64) : (k.crWrite use n v).cr = k.cr := by
  unfold Core.crWrite
  split
  · rfl
  · split
    · rfl
    · dsimp only; split <;> rfl

theorem crWrite_of_d {k : Core} {n : Nat} {d : CrDef} (h0 : n ≠ 0) (hn : crAt n = some d) (hd : d.cls = .d) (use : Nat) (v : W64) :
    (k.crWrite use n v).pendD = k.pendD ++ [pendDOf k d use n v] ∧ (k.crWrite use n v).pendS = k.pendS := by
  simp [Core.crWrite, h0, hn, hd, pendDOf]

theorem crWrite_of_s {k : Core} {n : Nat} {d : CrDef} (h0 : n ≠ 0) (hn : crAt n = some d) (hd : d.cls = .s) (use : Nat) (v : W64) :
    (k.crWrite use n v).pendD = k.pendD ∧ (k.crWrite use n v).pendS = k.pendS.filter (fun p => p.1 != crKey n k.secure) ++
      [(crKey n k.secure, crWritten k d n (k.crLast (crKey n k.secure)) v)] := by
  simp [Core.crWrite, h0, hn, hd]

/-- A write adds one entry of its register to the class D writes, or puts one in the place of those of its register among the class S
writes, or is ignored. -/
theorem crWrite_cases (k : Core) (use n : Nat) (v : W64) (h0 : n ≠ 0) :
    (∃ p, p.num = crKey n k.secure ∧ (k.crWrite use n v).pendD = k.pendD ++ [p] ∧ (k.crWrite use n v).pendS = k.pendS) ∨
    (∃ x, (k.crWrite use n v).pendD = k.pendD ∧
      (k.crWrite use n v).pendS = k.pendS.filter (fun p => p.1 != crKey n k.secure) ++ [(crKey n k.secure, x)]) ∨
    k.crWrite use n v = k := by
  cases hn : crAt n with
  | none => exact .inr (.inr (by simp only [Core.crWrite, h0, if_false, hn]))
  | some d =>
    cases hd : d.cls with
    | d => exact .inl ⟨_, rfl, crWrite_of_d h0 hn hd use v⟩
    | s => exact .inr (.inl ⟨_, crWrite_of_s h0 hn hd use v⟩)
    | n => exact .inr (.inr (by simp only [Core.crWrite, h0, if_false, hn, hd]))

/-- An entry put in the place of the earlier ones of its register changes nothing that passes over that register's entries. -/
theorem foldl_replace {key : Nat} (f : W64 → Nat × W64 → W64) (hf : ∀ w p, p.1 = key → f w p = w)
    (l : List (Nat × W64)) (x v : W64) :
    (l.filter (fun p => p.1 != key) ++ [(key, x)]).foldl f v = l.foldl f v := by
  rw [List.foldl_append, List.foldl_cons, List.foldl_nil, hf _ _ rfl, List.foldl_filter]
  refine List.foldl_ext _ _ _ fun w p _ => ?_
  split
  case isTrue => rfl
  case isFalse hp => exact (hf w p (by simpa using hp)).symm

theorem foldl_afterS_replace (l : List (Nat × W64)) {key m : Nat} (h : m ≠ key) (x v : W64) :
    (l.filter (fun p => p.1 != key) ++ [(key, x)]).foldl (afterS m) v = l.foldl (afterS m) v :=
  foldl_replace _ (fun _ _ hp => if_neg (hp.trans_ne h.symm)) l x v

/-! ## Registers that a write leaves alone -/

/-- A write of one register shows through no other: not in effect, not as last written, and not when the pending writes take effect. The
status and the sampling registers, of which hardware writes parts, aside. -/
theorem crWrite_other (k : Core) (use n : Nat) (v : W64) (hn : n ≠ 0) {m : Nat} (h : m ≠ crKey n k.secure)
    (h0 : m ≠ 0) (ha : m ≠ 0xA1) (hb : m ≠ 0xA3) :
    (k.crWrite use n v).crEff m = k.crEff m ∧ (k.crWrite use n v).crLast m = k.crLast m ∧
      ((k.crWrite use n v).applyAll true).crBase m = (k.applyAll true).crBase m := by
  have hc : (k.crWrite use n v).crBase m = k.crBase m := crBase_of_cr (Core.crWrite_cr k use n v) m
  rw [crBase_applyAll _ h0 ha hb, crBase_applyAll _ h0 ha hb]
  rcases crWrite_cases k use n v hn with ⟨p, hp, hd, hs⟩ | ⟨x, hd, hs⟩ | hk
  · have hm : p.num ≠ m := fun e => h (e.symm.trans hp)
    simp only [Core.crEff, Core.crLast, hd, hs, hc, List.foldl_append, List.foldl_cons, List.foldl_nil, hm, false_and, if_false, afterD,
      and_self]
  · have hl := foldl_replace (fun (acc : W64) (p : Nat × W64) => if p.1 = m then p.2 else acc)
      (fun _ _ hp => if_neg (hp.trans_ne h.symm)) k.pendS x
    simp only [Core.crEff, Core.crLast, hd, hs, hc, foldl_afterS_replace _ h, hl, and_self]
  · rw [hk]
    exact ⟨rfl, rfl, rfl⟩

/-- The registers of one world's bank are none of the other's (R53). -/
theorem crKey_other_world {n m : Nat} (hn : 0x100 ≤ n) (hn' : n < 0x140) (hm : 0x100 ≤ m) (hm' : m < 0x140) (sec : Bool) :
    crKey m (!sec) ≠ crKey n sec := by
  cases sec <;> simp [crKey, crBanked, hn, hn', hm, hm'] <;> omega

theorem le_crKey (n : Nat) (sec : Bool) : n ≤ crKey n sec := by
  unfold crKey; split <;> omega

theorem crKey_eq_iff_of_lt {n x : Nat} (hx : x < 0x1000) (hb : crBanked x = false) (sec : Bool) : crKey n sec = x ↔ n = x := by
  unfold crKey
  split
  case isTrue h =>
    refine ⟨fun e => by omega, fun e => ?_⟩
    rw [e, hb] at h
    simp at h
  case isFalse => exact Iff.rfl

/-! ## The window of a class D write (R57) -/

/-- Positions passed one after the other. -/
theorem foldl_position (j : Nat) (k : Core) : (List.range j).foldl (fun q _ => q.position) k = Core.position^[j] k := by
  rw [List.foldl_const, List.length_range]

theorem position_of_pendD_nil {k : Core} (h : k.pendD = []) : k.position = k := by
  unfold Core.position
  rw [h]
  exact (congrArg (fun l => { k with pendD := l }) h.symm)

theorem positions_of_pendD_nil {k : Core} (h : k.pendD = []) (j : Nat) : Core.position^[j] k = k :=
  Function.iterate_fixed (position_of_pendD_nil h) j

/-- Inside its window a write only comes nearer to its end. -/
theorem positions_in_window {k : Core} {p : PendD} (h : k.pendD = [p]) {j : Nat} (hj : j < p.left) :
    Core.position^[j] k = { k with pendD := [{ p with left := p.left - j }] } := by
  induction j with
  | zero => exact congrArg (fun l => { k with pendD := l }) h
  | succ j ih =>
    have hl : p.left - (j + 1) ≠ 0 := by omega
    rw [Function.iterate_succ_apply', ih (by omega)]
    simp [Core.position, hl, Nat.sub_sub]

/-- At the end of its window it takes effect. -/
theorem positions_at_end {k : Core} {p : PendD} (h : k.pendD = [p]) (hp : 0 < p.left) :
    Core.position^[p.left] k = ({ k with pendD := [] } : Core).applyD { p with left := 0 } := by
  obtain ⟨j, hj⟩ : ∃ j, p.left = j + 1 := ⟨p.left - 1, by omega⟩
  rw [hj, Function.iterate_succ_apply', positions_in_window h (by omega)]
  simp [Core.position, hj]

/-- The one class D write of a core shows the old value or the new one until its window ends, then the new one; no other register
changes. -/
theorem window_of_single {k : Core} {p : PendD} (h : k.pendD = [p]) (hp : 0 < p.left) (h0 : p.num ≠ 0) (ha : p.num ≠ 0xA1) (j : Nat) :
    (j < p.left → (Core.position^[j] k).crEff p.num = k.crBase p.num ∨ (Core.position^[j] k).crEff p.num = p.over (k.crBase p.num)) ∧
    (p.left ≤ j → (Core.position^[j] k).crEff p.num = p.over (k.crBase p.num)) ∧
    ∀ m, m ≠ p.num → (Core.position^[j] k).crBase m = k.crBase m := by
  by_cases hj : j < p.left
  · rw [positions_in_window h hj]
    exact ⟨fun _ => crEff_of_pendD_single (p := { p with left := p.left - j }) rfl, fun hl => absurd hj (by omega), fun _ _ => rfl⟩
  · obtain ⟨i, rfl⟩ : ∃ i, j = i + p.left := ⟨j - p.left, by omega⟩
    have he : (({ k with pendD := [] } : Core).applyD { p with left := 0 }).pendD = [] := Core.applyD_pendD _ _
    have hb : ∀ m, (({ k with pendD := [] } : Core).applyD { p with left := 0 }).crBase m = afterD m (k.crBase m) p :=
      fun m => crBase_applyD_plain _ _ h0 ha m
    rw [Function.iterate_add_apply, positions_at_end h hp, positions_of_pendD_nil he, crEff_of_pendD_nil he]
    exact ⟨fun hl => absurd hl hj, fun _ => (hb _).trans (if_pos rfl), fun m hm => (hb m).trans (if_neg hm.symm)⟩

/-! ## What a read returns -/

theorem crRead_banked (s : State) (c : Nat) {n : Nat} (hn : 0x100 ≤ n) (hn' : n < 0x140) :
    crRead s c n = caseBit (s.core c) n (crKey n (s.core c).secure) ((s.core c).crLast (crKey n (s.core c).secure)) := by
  simp only [crRead, show n ≠ 0 by omega, show n ≠ 1 by omega, show n ≠ 8 by omega, show n ≠ 0x44 by omega,
    show n ≠ 0x46 by omega, show n ≠ 0x211 by omega, show n ≠ 9 by omega, show n ≠ 0xA3 by omega, if_false]

theorem getElem_setBit {n : Nat} (x : BitVec n) (i j : Nat) (b : Bool) (hj : j < n) :
    (setBit x i b)[j] = if j = i then b else x[j] := by
  have h1 : (1#n <<< i).getLsbD j = decide (j = i) := by
    rw [BitVec.getLsbD_shiftLeft, BitVec.getLsbD_one]
    by_cases h : j = i
    · simp [h, show i < n by omega]; omega
    · simp [h]; omega
  rw [setBit, ← BitVec.getLsbD_eq_getElem, ← BitVec.getLsbD_eq_getElem]
  cases b with
  | false =>
    rw [if_neg Bool.false_ne_true, BitVec.getLsbD_and, BitVec.getLsbD_not, h1]
    by_cases h : j = i <;> simp only [h, hj, decide_true, decide_false] <;> simp
  | true =>
    rw [if_pos rfl, BitVec.getLsbD_or, h1]
    by_cases h : j = i <;> simp [h]

theorem setBit_setBit {n : Nat} (x : BitVec n) (i : Nat) (a b : Bool) : setBit (setBit x i a) i b = setBit x i b := by
  ext j hj
  rw [getElem_setBit, getElem_setBit, getElem_setBit]
  split <;> rfl

theorem bitAt_setBit {n : Nat} (x : BitVec n) (i : Nat) (b : Bool) (hi : i < n) : bitAt (setBit x i b) i = b := by
  rw [bitAt, BitVec.getLsbD_eq_getElem hi, getElem_setBit, if_pos rfl]

/-- Only BAD of the high half of a casement pair is not as it was last written. -/
theorem caseBit_below (k : Core) {n : Nat} (hn : n < 0x130) (key : Nat) (v : W64) : caseBit k n key v = v := by
  have hb : ¬ ((n / 0x10 = 0x13 ∨ n / 0x10 = 0x23 ∨ n / 0x10 = 0x33) ∧ n % 2 = 1) := by omega
  simp only [caseBit, hb, if_false]

theorem caseBit_setBit (k : Core) (n key : Nat) (v : W64) : setBit (caseBit k n key v) 63 false = setBit v 63 false := by
  simp only [caseBit]
  split
  · exact setBit_setBit ..
  · rfl

/-! ## Counting changes counters only (R464-R467) -/

theorem CountsOnly.refl (ex : Nat → Bool) (k : Core) : CountsOnly ex k k := ⟨rfl, fun _ _ _ => rfl, rfl⟩

theorem CountsOnly.trans {ex : Nat → Bool} {k k' k'' : Core} (h : CountsOnly ex k k') (h' : CountsOnly ex k' k'') :
    CountsOnly ex k k'' := by
  obtain ⟨hu, hc, hp⟩ := h
  obtain ⟨hu', hc', hp'⟩ := h'
  exact ⟨hu'.trans hu, fun m h1 h2 => (hc' m h1 h2).trans (hc m h1 h2), hp'.trans hp⟩

theorem CountsOnly.foldl {ex : Nat → Bool} {α : Type} {f : Core → α → Core} (l : List α)
    (h : ∀ a ∈ l, ∀ k, CountsOnly ex k (f k a)) (k : Core) : CountsOnly ex k (l.foldl f k) := by
  induction l generalizing k with
  | nil => exact .refl ex k
  | cons a l ih =>
    exact (h a List.mem_cons_self k).trans (ih (fun b hb => h b (List.mem_cons_of_mem a hb)) _)

@[simp] theorem Core.past_crBase (k : Core) (m : Nat) : k.past.crBase m = k.crBase m := rfl
@[simp] theorem Core.past_pendS (k : Core) : k.past.pendS = k.pendS := rfl

theorem CountsOnly.past {ex : Nat → Bool} {k k' : Core} (h : CountsOnly ex k k') : CountsOnly ex k.past k'.past := by
  obtain ⟨hu, hc, hp⟩ := h
  exact ⟨congrArg Core.past hu, hc, hp⟩

theorem CountsOnly.pendS {ex : Nat → Bool} {k k' : Core} (h : CountsOnly ex k k') : k'.pendS = k.pendS :=
  (congrArg Core.pendS h.1 :)

theorem CountsOnly.crBase {k k' : Core} (h : CountsOnly (fun _ => false) k k') {m : Nat} (hm : counterKey m = false) :
    k'.crBase m = k.crBase m := h.2.1 m hm rfl

theorem countsOnly_crPut (ex : Nat → Bool) {n : Nat} (hn : counterKey n = true) (k : Core) (v : W64) : CountsOnly ex k (k.crPut n v) := by
  refine ⟨rfl, fun m hm _ => ?_, rfl⟩
  rw [crBase_crPut, if_neg (fun e => by rw [e, hn] at hm; cases hm)]

theorem countsOnly_orBits (ex : Nat → Bool) {n : Nat} (hn : counterKey n = true) (k : Core) (b : W64) :
    CountsOnly ex k (k.orBits n b) := by
  refine ⟨rfl, fun m hm hx => (countsOnly_crPut ex hn k _).2.1 m hm hx, ?_⟩
  show (k.pendD.map _).filter _ = _
  induction k.pendD with
  | nil => rfl
  | cons p l ih =>
    by_cases e : p.num = n
    · simp [e, hn, ih]
    · simp [e, List.filter_cons, ih]

theorem countsOnly_sampleEvent (ex : Nat → Bool) (k : Core) (ev amount : Nat) (w : Ident) :
    CountsOnly ex k (k.sampleEvent ev amount w) := by
  unfold Core.sampleEvent
  dsimp only
  split
  · generalize (if k.smpLeft = 0 then _ else k.smpLeft) = left
    split <;> exact ⟨rfl, fun _ _ _ => rfl, rfl⟩
  · exact .refl ex k

theorem del_put {α : Type} (t : Tab α) (n : Nat) (v : α) : del (put t n v) n = del t n := by
  induction t with
  | nil => simp [put, del]
  | cons p t ih =>
    obtain ⟨j, w⟩ := p
    unfold put
    split
    · simp [del]
    · split
      case isTrue h => simp [del, h]
      case isFalse h =>
        have h : j ≠ n := Ne.symm h
        simpa [del, List.filter_cons, h] using ih

/-! ## Retirement moves the core past its instruction, and counts -/

theorem Ends.refl (s : State) (c : Nat) : Ends s s c (s.core c) := ⟨rfl, fun _ _ => rfl, .refl _ _⟩

theorem Ends.trans {s t u : State} {c : Nat} {k : Core} (h : Ends s t c k) (h' : Ends t u c (t.core c)) : Ends s u c k := by
  obtain ⟨ha, hd, hk⟩ := h
  obtain ⟨ha', hd', hk'⟩ := h'
  exact ⟨ha'.trans ha, fun d hc => (hd' d hc).trans (hd d hc), hk.trans hk'⟩

theorem Ends.onCore {s t : State} {c : Nat} {k : Core} (h : Ends s t c k) {f : Core → Core} {k' : Core}
    (hf : CountsOnly (fun _ => false) k' (f (t.core c))) : Ends s (t.onCore c f) c k' := by
  obtain ⟨ha, hd, -⟩ := h
  refine ⟨ha, fun d hc => ?_, ?_⟩
  · rw [core_onCore, if_neg hc, hd d hc]
  · rwa [core_onCore, if_pos rfl]

theorem ends_onCore (s : State) (c : Nat) {f : Core → Core} (hf : ∀ k, CountsOnly (fun _ => false) k (f k)) :
    Ends s (s.onCore c f) c (s.core c) := (Ends.refl s c).onCore (hf _)

/-- A step that leaves the cores and, up to the counter of free values and the age count, the rest of the part. -/
theorem Ends.of_cores {s t : State} (hc : t.cores = s.cores) (ha : t.around = s.around) (c : Nat) : Ends s t c (s.core c) := by
  have h : ∀ d, t.core d = s.core d := fun d => by unfold State.core; rw [hc]
  exact ⟨ha, fun d _ => h d, (h c) ▸ .refl _ _⟩

theorem useFree_ends (s : State) (c : Nat) : Ends s s.useFree c (s.core c) := .of_cores rfl rfl c

theorem localAge_ends (s : State) (c : Nat) : Ends s (localAge s c 8) c (s.core c) :=
  (ends_onCore s c (f := fun k => { k with lage := put k.lage 8 s.irt.next }) fun k =>
    ⟨by unfold Core.uncounted; rw [del_put], fun _ _ _ => rfl, rfl⟩).trans (.of_cores rfl rfl c)

/-- A further count that is made or not. -/
theorem Ends.ite {s t : State} {c : Nat} {k : Core} (h : Ends s t c k) (p : Prop) [Decidable p] {f : State → State}
    (hf : ∀ u, Ends u (f u) c (u.core c)) : Ends s (if p then f t else t) c k := by
  split
  · exact h.trans (hf t)
  · exact h

theorem eventFor_ends (s : State) (c ev amount : Nat) (w : Ident) : Ends s (s.eventFor c ev amount w) c (s.core c) := by
  unfold State.eventFor
  dsimp only
  split
  · exact .refl s c
  · refine Ends.ite (ends_onCore s c fun k => ?_) _ (f := fun t => localAge t c 8) (fun u => localAge_ends u c)
    refine (countsOnly_sampleEvent _ k ev amount w).trans (.foldl _ (fun n hn k => ?_) _)
    have hk : counterKey (0x88 + n) = true := by
      have := List.mem_range.mp hn
      simp [counterKey]; omega
    split
    · split
      · exact countsOnly_crPut _ hk k _
      · exact (countsOnly_crPut _ hk k _).trans (countsOnly_orBits _ rfl _ _)
    · exact .refl _ k

theorem event_ends (s : State) (c ev amount : Nat) : Ends s (s.event c ev amount) c (s.core c) := eventFor_ends s c ev amount _

theorem countCycles_ends (s : State) (c n : Nat) : Ends s (s.countCycles c n) c (s.core c) := by
  unfold State.countCycles
  refine Ends.ite (.trans (.trans ?_ (event_ends ..)) (event_ends ..)) _ (f := fun t => t.event c 0x021 n) (fun u => event_ends u ..)
  exact Ends.ite (.refl s c) _ (f := fun t => t.onCore c fun k => k.crPut 0x81 (k.crBase 0x81 + BitVec.ofNat 64 n))
    (fun u => ends_onCore u c fun k => countsOnly_crPut _ rfl k _)

theorem cyclesPassN_ends (s : State) (c n : Nat) : Ends s (s.cyclesPassN c n) c (s.core c) := by
  unfold State.cyclesPassN
  refine .trans (.trans (countCycles_ends s c n) (ends_onCore _ c fun k => ?_)) (useFree_ends _ c)
  exact ⟨rfl, fun _ _ _ => rfl, rfl⟩

theorem retired_ends (s : State) (c : Nat) : Ends s (s.retired c) c (s.core c) :=
  (event_ends s c 0x002 1).trans (ends_onCore _ c fun k => by
    split
    · exact ⟨rfl, fun _ _ _ => rfl, rfl⟩
    · exact .refl _ k)

/-- Retirement takes the core past its instruction and counts; nothing else of the part changes. -/
theorem retireIn_ends (s : State) (c n : Nat) : Ends s (s.retireIn c n) c (s.core c).past := by
  obtain ⟨ha, hd, hk⟩ := retired_ends s c
  unfold State.retireIn
  exact .trans (.onCore (f := Core.past) ⟨ha, hd, hk⟩ hk.past) (cyclesPassN_ends _ c n)

theorem retire_ends (s : State) (c : Nat) : Ends s (s.retire c) c (s.core c).past := retireIn_ends s c _

theorem Ends.stalled {s t : State} {c : Nat} {k : Core} (h : Ends s t c k) : t.stalled = s.stalled :=
  (congrArg State.stalled h.1 :)

/-! ## CTLSYNC -/

theorem Ready.fetched_stalled {s : State} {c : Nat} {i : Instr} (h : Ready s c i) : (fetched s c i).stalled = false := h.2.2.2.2

/-- An instruction that is ready does its own work on the state its checks leave, unless that meets a request that must wait. -/
theorem runInstr_of_ready {s : State} {c : Nat} {i : Instr} (h : Ready s c i) {body : State → State}
    (hb : (body (fetched s c i)).stalled = false) : runInstr s c i body = body (fetched s c i) := by
  obtain ⟨ha, hp, hw, hc, -⟩ := h
  have ht : attempt s c i body = body (fetched s c i) := by
    unfold attempt fetched
    generalize checks s c i = r at hc
    obtain ⟨t, e⟩ := r
    cases hc
    rfl
  simp [runInstr, ha, hp, hw, ht, hb]

theorem acceptAll_sameCrs (k : Core) : SameCrs k k.acceptAll := by
  have h : ∀ (l : List XlReq) (q : Core), SameCrs q (l.foldl Core.invalidate q) := fun l => by
    induction l with
    | nil => exact .refl
    | cons x l ih => exact fun q => ih (q.invalidate x)
  exact h k.inbox k

theorem look_map {α β : Type} (f : α → β) (t : Tab α) (n : Nat) : look (t.map (fun p => (p.1, f p.2))) n = (look t n).map f := by
  induction t with
  | nil => rfl
  | cons p t ih =>
    simp only [List.map_cons, look]
    split
    · rfl
    · exact ih

/-- What every core accepts of its inbox at a CTLSYNC (R110, R113). -/
def Core.accepted (k : Core) : Core := if k.inbox.isEmpty then k else k.acceptAll

theorem accepted_sameCrs (k : Core) : SameCrs k k.accepted := by
  unfold Core.accepted
  split
  · exact .refl k
  · exact acceptAll_sameCrs k

/-- The state with every core's inbox accepted. -/
def State.allAccepted (s : State) : State := { s with cores := s.cores.map (fun p => (p.1, p.2.accepted)) }

theorem core_allAccepted (s : State) (c : Nat) : s.allAccepted.core c = (s.core c).accepted := by
  unfold State.core State.allAccepted lookD
  rw [look_map]
  cases look s.cores c with
  | none => rfl
  | some k => rfl

theorem clockSwitch_sameCrs (pll : Bool) (k : Core) : SameCrs k (clockSwitch pll k) := by
  unfold clockSwitch
  dsimp only
  split <;> exact ⟨rfl, rfl, rfl, rfl⟩

/-- The work of a CTLSYNC, on the state its checks leave. -/
def ctlsyncWork (s : State) (c : Nat) : State :=
  s.allAccepted.onCore c (fun k => clockSwitch s.power.pll (k.applyAll true))

theorem core_ctlsyncWork_sameCrs (s : State) (c : Nat) : SameCrs ((s.core c).applyAll true) ((ctlsyncWork s c).core c) := by
  rw [ctlsyncWork, core_onCore, if_pos rfl, core_allAccepted]
  exact (accepted_sameCrs _).applyAll.trans (clockSwitch_sameCrs _ _)

theorem exec_ctlsync (c : CoreId) (s : State) :
    exec (.ctlsync c) s = .next (runInstr s c (.ctlsync c) fun u => (ctlsyncWork u c).retire c) := rfl

theorem ctlsyncWork_stalled (s : State) (c : Nat) : (ctlsyncWork s c).stalled = s.stalled := rfl

theorem exec_ctlsync_of_ready {s : State} {c : CoreId} (h : Ready s c (.ctlsync c)) :
    exec (.ctlsync c) s = .next ((ctlsyncWork (fetched s c (.ctlsync c)) c).retire c) := by
  have hb : ((ctlsyncWork (fetched s c (.ctlsync c)) c).retire c).stalled = false := by
    rw [(retire_ends _ _).stalled, ctlsyncWork_stalled, h.fetched_stalled]
  rw [exec_ctlsync, runInstr_of_ready h hb]

/-- A CTLSYNC leaves no class S write pending, and every register but the counters as the writes pending leave it (R58). -/
theorem ctlsync_settles {s : State} {c : CoreId} (h : Ready s c (.ctlsync c)) :
    ∃ t, exec (.ctlsync c) s = .next t ∧ (t.core c).pendS = [] ∧
      ∀ m, counterKey m = false → (t.core c).crBase m = (((fetched s c (.ctlsync c)).core c).applyAll true).crBase m := by
  obtain ⟨-, -, hk⟩ := retire_ends (ctlsyncWork (fetched s c (.ctlsync c)) c) c
  have hw := core_ctlsyncWork_sameCrs (fetched s c (.ctlsync c)) c
  refine ⟨_, exec_ctlsync_of_ready h, ?_, fun m hm => ?_⟩
  · rw [hk.pendS, Core.past_pendS, hw.pendS, applyAll_pendS]
  · rw [hk.crBase hm, Core.past_crBase, hw.crBase]

/-! ## The classes and the banks -/

/-- A class D write is seen whole or not at all until the eighth position, and from it on; other registers keep their values (R57). -/
theorem classD_window {k : Core} {n : Nat} {d : CrDef} (h0 : n ≠ 0) (ha : n ≠ 0xA1) (hn : crAt n = some d) (hd : d.cls = .d)
    (hk : k.pendD = []) (use : Nat) (v : W64) (j : Nat) :
    let key := crKey n k.secure
    let new := crWritten k d n (k.crBase key) v
    let after := Core.position^[j] (k.crWrite use n v)
    (j < 8 → after.crEff key = k.crBase key ∨ after.crEff key = new) ∧ (8 ≤ j → after.crEff key = new) ∧
      ∀ m, m ≠ key → after.crBase m = k.crBase m := by
  intro key new after
  have hw : (k.crWrite use n v).pendD = [pendDOf k d use n v] := by rw [(crWrite_of_d h0 hn hd use v).1, hk, List.nil_append]
  have hb : ∀ m, (k.crWrite use n v).crBase m = k.crBase m := crBase_of_cr (Core.crWrite_cr k use n v)
  have key0 : key ≠ 0 := (crKey_eq_iff_of_lt (by decide) rfl _).not.mpr h0
  have keyA : key ≠ 0xA1 := (crKey_eq_iff_of_lt (by decide) rfl _).not.mpr ha
  have hwin := window_of_single hw (show 0 < 8 by decide) key0 keyA j
  simp only [pendDOf_over, hb] at hwin
  exact hwin

/-- A class S write is held from every instruction, and a CTLSYNC makes it and every other pending write take effect (R58). -/
theorem classS_held {k : Core} {n : Nat} {d : CrDef} (h0 : n ≠ 0) (hn : crAt n = some d) (hd : d.cls = .s)
    (hk : k.pendD = []) (use : Nat) (v : W64) :
    let key := crKey n k.secure
    let new := crWritten k d n (k.crLast key) v
    let w := k.crWrite use n v
    (∀ j m, (Core.position^[j] w).crEff m = k.crEff m) ∧ w.crLast key = new ∧
      (∃ old, (w.applyAll true).crBase key = afterS key old (key, new)) ∧
      ∀ m, m ≠ key → (w.applyAll true).crBase m = (k.applyAll true).crBase m := by
  intro key new w
  obtain ⟨hd', hs⟩ := crWrite_of_s h0 hn hd use v
  have hw : w.pendD = [] := hd'.trans hk
  have hb : ∀ m, w.crBase m = k.crBase m := crBase_of_cr (Core.crWrite_cr k use n v)
  refine ⟨fun j m => ?_, ?_, ?_, fun m hm => ?_⟩
  · rw [positions_of_pendD_nil hw, crEff_of_pendD_nil hw, crEff_of_pendD_nil hk, hb]
  · simp only [Core.crLast, w, hs, List.foldl_append, List.foldl_cons, List.foldl_nil]
    exact if_pos rfl
  · rw [crBase_applyAll_of_pendD_nil hw, hs, List.foldl_append]
    exact ⟨_, rfl⟩
  · rw [crBase_applyAll_of_pendD_nil hw, crBase_applyAll_of_pendD_nil hk, hs, hb, foldl_afterS_replace _ hm]

/-- Settles O17: the window of a class D write, a class S write held until CTLSYNC, and the two banks, each by its own theorem. -/
theorem controlRegisterClasses : Obligations.ControlRegisterClasses := by
  unfold Obligations.ControlRegisterClasses
  refine ⟨?_, ?_, fun c s h => ctlsync_settles h, ?_, ?_⟩
  · rintro k n use v new d j h0 ha hn hd hk rfl
    rw [foldl_position]
    exact classD_window h0 ha hn hd hk use v j
  · rintro k n use v new d hn hd h0 hk rfl
    obtain ⟨hheld, hlast, ⟨old, hnew⟩, hother⟩ := classS_held h0 hn hd hk use v
    refine ⟨fun j m => ?_, hlast, ?_, hother⟩
    · rw [foldl_position]
      exact hheld j m
    · rw [afterS, if_pos rfl] at hnew
      have hkey : crKey n k.secure = 0x211 ↔ n = 0x211 := crKey_eq_iff_of_lt (by decide) rfl _
      split
      case isTrue hc =>
        subst hc
        rw [if_pos (hkey.mpr rfl), hkey.mpr rfl] at hnew
        rw [hnew, hkey.mpr rfl, bitAt_setBit _ _ _ (by decide)]
      case isFalse hc => rwa [if_neg (hkey.not.mpr hc)] at hnew
  · intro k n use v hn hn' w m hm hm' o
    have ho : m ≤ o := le_crKey m _
    exact crWrite_other k use n v (by omega) (crKey_other_world hn hn' hm hm' _) (by omega) (by omega) (by omega)
  · intro s c n hn hn' k
    rw [crRead_banked s c hn hn']
    exact ⟨rfl, caseBit_setBit .., fun hlt => caseBit_below _ hlt _ _⟩

end Sys2Proof.Machine
end

section
/-! PROOFS. Counting, which every retirement and every exception does, commutes with control register writes: none of them reads a
counter, and each register takes its writes apart from the others. -/

namespace Sys2Proof.Machine

/-! ## What agrees on two cores that differ by counting only -/

theorem CountsOnly.symm {ex : Nat → Bool} {k k' : Core} (h : CountsOnly ex k k') : CountsOnly ex k' k := by
  obtain ⟨hu, hc, hp⟩ := h
  exact ⟨hu.symm, fun m h1 h2 => (hc m h1 h2).symm, hp.symm⟩

variable {k k' : Core} (h : CountsOnly (fun _ => false) k k')
include h

theorem CountsOnly.status : k'.status = k.status := (congrArg Core.status h.1 :)

theorem CountsOnly.pc : k'.pc = k.pc := (congrArg Core.pc h.1 :)

theorem CountsOnly.slot : k'.slot = k.slot := (congrArg Core.slot h.1 :)

theorem CountsOnly.g : k'.g = k.g := (congrArg Core.g h.1 :)

theorem CountsOnly.pl : k'.pl = k.pl := congrArg (fun x => fld x 0 2) h.status

theorem CountsOnly.secure : k'.secure = k.secure := congrArg (fun x => bitAt x 2) h.status

theorem CountsOnly.owner : k'.owner = k.owner := congrArg (BitVec.setWidth 12) (h.crBase rfl)

theorem CountsOnly.gr (r : RegNo) : k'.gr r = k.gr r := by rw [Core.gr, Core.gr, h.g]

/-! ## Counting commutes with control register writes -/

/-- The same register is put on both, a counter with any values. -/
theorem CountsOnly.crPut {n : Nat} {v v' : W64} (hv : counterKey n = false → v' = v) :
    CountsOnly (fun _ => false) (k.crPut n v) (k'.crPut n v') := by
  obtain ⟨hu, hc, hp⟩ := h
  refine ⟨hu, fun m hm hx => ?_, hp⟩
  rw [crBase_crPut, crBase_crPut, hc m hm hx]
  split
  case isTrue e => rw [hv (e ▸ hm)]
  case isFalse => rfl

theorem CountsOnly.crPut_same (n : Nat) (v : W64) : CountsOnly (fun _ => false) (k.crPut n v) (k'.crPut n v) := h.crPut fun _ => rfl

theorem CountsOnly.predClear : CountsOnly (fun _ => false) k.predClear k'.predClear := by
  obtain ⟨hu, hc, hp⟩ := h
  exact ⟨congrArg Core.predClear hu, hc, hp⟩

theorem CountsOnly.applyD (p : PendD) : CountsOnly (fun _ => false) (k.applyD p) (k'.applyD p) := by
  unfold Core.applyD
  split
  · obtain ⟨hu, hc, hp⟩ := h
    exact ⟨congrArg (fun q => { q with status := setBit q.status 4 (bitAt p.val 4) }) hu, hc, hp⟩
  · split
    · rw [h.crBase (m := 0xA1) rfl, h.crBase (m := 0xA3) rfl, h.owner, h.secure, h.pl]
      exact (h.crPut_same _ _).crPut_same _ _
    · exact h.crPut fun hn => by rw [h.crBase hn]

/-- The same translations are dropped by both. -/
theorem CountsOnly.filter (p : TlbEnt → Bool) (q : PtrEnt → Bool) : CountsOnly (fun _ => false)
    { k with tlb := k.tlb.filter p, ptrs := k.ptrs.filter q } { k' with tlb := k'.tlb.filter p, ptrs := k'.ptrs.filter q } := by
  obtain ⟨hu, hc, hp⟩ := h
  exact ⟨congrArg (fun x => { x with tlb := x.tlb.filter p, ptrs := x.ptrs.filter q }) hu, hc, hp⟩

theorem CountsOnly.casementDrop (n : Nat) : CountsOnly (fun _ => false) (k.casementDrop n) (k'.casementDrop n) := by
  unfold Core.casementDrop Core.markedDrop
  rw [h.crBase (m := 0x221) rfl]
  dsimp only
  split
  · exact h.filter _ _
  · split
    · exact h.filter _ _
    · split
      · exact h.filter _ _
      · exact h

theorem CountsOnly.applyS (p : Nat × W64) : CountsOnly (fun _ => false) (k.applyS false p) (k'.applyS false p) := by
  unfold Core.applyS
  rw [h.owner]
  split
  · obtain ⟨hu, hc, hp⟩ := h
    exact ⟨congrArg (fun q => { q with pendS := q.pendS ++ [p] }) hu, hc, hp⟩
  · have hd := (h.crPut_same p.1 p.2).casementDrop p.1
    dsimp only
    split
    · exact hd.predClear
    · exact hd

omit h in
/-- A write of a counter that takes effect is counting. -/
theorem countsOnly_applyD {p : PendD} (hp : counterKey p.num = true) (k : Core) : CountsOnly (fun _ => false) k (k.applyD p) := by
  have h0 : p.num ≠ 0 := fun e => by rw [e] at hp; cases hp
  have ha : p.num ≠ 0xA1 := fun e => by rw [e] at hp; cases hp
  rw [Core.applyD, if_neg h0, if_neg ha]
  exact countsOnly_crPut _ hp k _

/-- Of class D writes that take effect, those of counters may be left out. -/
theorem countsOnly_foldl_applyD (l : List PendD) :
    CountsOnly (fun _ => false) ((l.filter (fun p => !counterKey p.num)).foldl Core.applyD k) (l.foldl Core.applyD k') := by
  induction l generalizing k k' with
  | nil => exact h
  | cons p l ih =>
    cases hp : counterKey p.num with
    | true =>
      rw [List.filter_cons_of_neg (by simp [hp])]
      exact ih (h.trans (countsOnly_applyD hp k'))
    | false =>
      rw [List.filter_cons_of_pos (by simp [hp])]
      exact ih (h.applyD p)

/-- Cores that differ by counting do so when every pending write has taken effect. -/
theorem CountsOnly.applyAll : CountsOnly (fun _ => false) (k.applyAll false) (k'.applyAll false) := by
  have hs := h.pendS
  obtain ⟨hu, hc, hp⟩ := h
  simp only [Bool.not_false, Bool.and_true] at hp
  have hq : CountsOnly (fun _ => false) { k with pendD := [], pendS := [] } { k' with pendD := [], pendS := [] } :=
    ⟨congrArg (fun q => { q with pendS := [] }) hu, hc, rfl⟩
  have hd := (countsOnly_foldl_applyD (.refl _ _) k.pendD).symm.trans (hp ▸ countsOnly_foldl_applyD hq k'.pendD)
  unfold Core.applyAll
  rw [hs]
  exact List.foldl_rel hd fun p _ a b hab => hab.applyS p

end Sys2Proof.Machine
end

section
/-! PROOFS. The entry of an exception (R61-R64): its parts, what they leave alone, and what the exception registers of the taking level
hold after it. -/

namespace Sys2Proof.Machine

/-! ## Entry (R64) -/

/-- What the first five exception registers take, by number in their block, with the restart address of R61. -/
def Core.excRegs (k : Core) (orig : Nat) (e : Exc) : List (Nat × W64) :=
  let ds := k.slot.isSome && !e.nextPc
  [(0, setBit k.status 5 ds), (1, if e.nextPc then (match k.slot with | some x => x | none => k.pc + 4) else k.pc),
    (2, if ds then k.slot.getD 0 else 0), (3, ecause e k.pl k.secure orig), (4, e.eaddr)]

/-- The exception registers of the taking level, and at PL2 EIPA. -/
def Core.reports (k : Core) (t orig : Nat) (e : Exc) : Core :=
  let q := (k.excRegs orig e).foldl (fun q p => q.crPut (crKey (excBase t + p.1) (t == 3 || k.secure)) p.2) k
  if t = 2 then q.crPut 0x207 e.eipa else q

/-- CR.STATUS in a handler at level `t`. -/
def handlerStatus (st : W64) (t : Nat) : W64 :=
  let st := setFld (setFld (setFld st 0 2 t) 3 1 0) 4 1 0
  if t = 3 then setFld st 2 1 1 else st

/-- A core without what was under way and has not retired. -/
def Core.discarded (k : Core) : Core := { k with smpHit := false, misp := [] }

/-- A core at an address with a status, in no slot. -/
def Core.startsAt (k : Core) (st pc : W64) : Core := { k with status := st, pc := pc, slot := none }

/-- The offset of a handler: of its kind, or of whether a synchronous exception changes level or world. -/
def Core.handlerOffset (k : Core) (t : Nat) (kind : Option Nat) : Nat :=
  match kind with
  | some x => x
  | none => if t = k.pl ∧ (t == 3 || k.secure) = k.secure then 0 else 0x200

/-- Entry from a core whose pending writes have taken effect. -/
def Core.entered (k : Core) (t orig : Nat) (e : Exc) (kind : Option Nat) : Core :=
  let r := k.reports t orig e
  let sec' := t == 3 || k.secure
  let q := r.startsAt (handlerStatus r.status t)
    ((r.crBase (crKey (excBase t + 5) sec') &&& ~~~0xFFF#64) + BitVec.ofNat 64 (k.handlerOffset t kind))
  if sec' != k.secure || (bitAt (k.crBase (crKey 0x110 k.secure)) 1 && decide (t ≠ k.pl)) then q.predClear else q

theorem enter_eq (k : Core) (t orig : Nat) (e : Exc) (kind : Option Nat) :
    k.enter t orig e kind = (k.applyAll false).discarded.entered t orig e kind := rfl

theorem counterKey_excKey (t : Nat) {n : Nat} (hn : n < 8) (sec : Bool) : counterKey (crKey (excBase t + n) sec) = false := by
  unfold counterKey crKey excBase
  split
  · simp
  · simp; omega

theorem CountsOnly.excRegs {k k' : Core} (h : CountsOnly (fun _ => false) k k') (orig : Nat) (e : Exc) :
    k'.excRegs orig e = k.excRegs orig e := by
  unfold Core.excRegs
  rw [h.status, h.pc, h.slot, h.pl, h.secure]

theorem CountsOnly.reports {k k' : Core} (h : CountsOnly (fun _ => false) k k') (t orig : Nat) (e : Exc) :
    CountsOnly (fun _ => false) (k.reports t orig e) (k'.reports t orig e) := by
  unfold Core.reports
  rw [h.excRegs, h.secure]
  have hr := List.foldl_rel (l := k.excRegs orig e) (f := fun q p => q.crPut (crKey (excBase t + p.1) (t == 3 || k.secure)) p.2)
    (r := CountsOnly fun _ => false) h fun p _ a b hab => hab.crPut_same _ p.2
  dsimp only
  split
  · exact hr.crPut_same _ _
  · exact hr

theorem CountsOnly.discarded {k k' : Core} (h : CountsOnly (fun _ => false) k k') :
    CountsOnly (fun _ => false) k.discarded k'.discarded := by
  obtain ⟨hu, hc, hp⟩ := h
  exact ⟨hu, hc, hp⟩

theorem CountsOnly.startsAt {k k' : Core} (h : CountsOnly (fun _ => false) k k') (st pc : W64) :
    CountsOnly (fun _ => false) (k.startsAt st pc) (k'.startsAt st pc) := by
  obtain ⟨hu, hc, hp⟩ := h
  exact ⟨congrArg (fun q => q.startsAt st pc) hu, hc, hp⟩

theorem CountsOnly.entered {k k' : Core} (h : CountsOnly (fun _ => false) k k') (t orig : Nat) (e : Exc) (kind : Option Nat) :
    CountsOnly (fun _ => false) (k.entered t orig e kind) (k'.entered t orig e kind) := by
  have hr := h.reports t orig e
  have hk : counterKey (crKey 0x110 k.secure) = false := by cases k.secure <;> rfl
  unfold Core.entered Core.handlerOffset
  dsimp only
  rw [hr.status, h.pl, h.secure, hr.crBase (counterKey_excKey t (by decide) _), h.crBase hk]
  split
  · exact (hr.startsAt _ _).predClear
  · exact hr.startsAt _ _

/-- Entry reads no counter: cores that differ by counting enter alike. -/
theorem CountsOnly.enter {k k' : Core} (h : CountsOnly (fun _ => false) k k') (t orig : Nat) (e : Exc) (kind : Option Nat) :
    CountsOnly (fun _ => false) (k.enter t orig e kind) (k'.enter t orig e kind) := by
  rw [enter_eq, enter_eq]
  exact h.applyAll.discarded.entered t orig e kind

/-- The core in which a step ends, up to counting. -/
theorem Ends.counts {s t : State} {c : Nat} {k : Core} (h : Ends s t c k) : CountsOnly (fun _ => false) k (t.core c) := h.2.2

theorem CountsOnly.takingLevel {k k' : Core} (h : CountsOnly (fun _ => false) k k') (route : Nat) :
    takingLevel k' route = takingLevel k route := by
  unfold Machine.takingLevel
  rw [h.pl, h.owner]

/-- A synchronous exception is taken at its level, and counted. -/
theorem except_takenAt (s : State) (c : Nat) (e : Exc) :
    TakenAt s (s.except c e) c e (if e.code = 0x20 then some 0x600 else none) := by
  have h0 : Ends s (if e.nextPc then s.retired c else s) c (s.core c) :=
    (Ends.refl s c).ite _ (f := fun u => u.retired c) fun u => retired_ends u c
  unfold TakenAt State.except
  generalize (if e.nextPc then s.retired c else s) = u at h0 ⊢
  have h1 := (h0.trans (event_ends u c 0x009 1)).trans (countCycles_ends _ c 12)
  dsimp only
  rw [h0.counts.secure, h0.counts.takingLevel]
  exact h1.onCore (h1.counts.enter _ _ _ _)

/-! ## What entry reports -/

theorem crKey_excBase_inj (t : Nat) {n m : Nat} (hn : n < 8) (hm : m < 8) (sec : Bool) :
    crKey (excBase t + n) sec = crKey (excBase t + m) sec ↔ n = m := by
  have hb : crBanked (excBase t + n) = crBanked (excBase t + m) := by
    unfold crBanked excBase
    rw [Bool.eq_iff_iff]
    simp
    omega
  unfold crKey
  rw [hb]
  split <;> omega

theorem excKey_two (n : Nat) (sec : Bool) : crKey (excBase 2 + n) sec = 0x200 + n := by
  have hb : crBanked (excBase 2 + n) = false := by
    rw [crBanked, decide_eq_false (p := excBase 2 + n < 0x140) (by unfold excBase; omega), Bool.and_false]
  rw [crKey, hb]
  rfl

/-- Of registers put one after the other at different keys, each takes its own value, and no other register changes. -/
theorem crBase_foldl_crPut (key : Nat → Nat) (l : List (Nat × W64)) (hl : (l.map fun p => key p.1).Nodup) (k : Core) (m : Nat) :
    (∀ p ∈ l, key p.1 = m → (l.foldl (fun q p => q.crPut (key p.1) p.2) k).crBase m = p.2) ∧
      (m ∉ l.map (fun p => key p.1) → (l.foldl (fun q p => q.crPut (key p.1) p.2) k).crBase m = k.crBase m) := by
  induction l generalizing k with
  | nil => simp
  | cons x l ih =>
    obtain ⟨hx, hl⟩ := List.nodup_cons.mp hl
    obtain ⟨hin, hout⟩ := ih hl (k.crPut (key x.1) x.2)
    rw [List.foldl_cons]
    refine ⟨fun p hp hm => ?_, fun hm => ?_⟩
    · rcases List.mem_cons.mp hp with rfl | hp
      · rw [hout (hm ▸ hx), crBase_crPut, if_pos hm.symm]
      · exact hin p hp hm
    · obtain ⟨hne, hm⟩ := not_or.mp (mt List.mem_cons.mpr hm)
      rw [hout hm, crBase_crPut, if_neg hne]

/-- What entry puts in an exception register of the taking level is read there. -/
theorem crBase_reports (k : Core) (t orig : Nat) (e : Exc) {p : Nat × W64} (hp : p ∈ k.excRegs orig e) :
    (k.reports t orig e).crBase (crKey (excBase t + p.1) (t == 3 || k.secure)) = p.2 := by
  have hlt : ∀ x ∈ k.excRegs orig e, x.1 < 5 := by simp [Core.excRegs]
  have hnd : ((k.excRegs orig e).map fun x => crKey (excBase t + x.1) (t == 3 || k.secure)).Nodup := by
    have h5 : ((k.excRegs orig e).map fun x => x.1).Nodup := by simp [Core.excRegs]
    refine (List.nodup_map_iff_inj_on (List.Nodup.of_map _ h5)).mpr fun x hx y hy hxy => ?_
    have hlx := hlt x hx
    have hly := hlt y hy
    exact List.inj_on_of_nodup_map h5 hx hy ((crKey_excBase_inj t (by omega) (by omega) _).mp hxy)
  have hf := (crBase_foldl_crPut (fun n => crKey (excBase t + n) (t == 3 || k.secure)) _ hnd k _).1 p hp rfl
  unfold Core.reports
  dsimp only
  split
  case isTrue h2 =>
    have h207 : crKey (excBase t + p.1) (t == 3 || k.secure) ≠ 0x207 := by
      have := hlt p hp
      rw [h2, excKey_two]
      omega
    rw [crBase_crPut, if_neg h207, hf]
  case isFalse => exact hf

/-! ## The level and world of the handler -/

theorem bitAt_setFld {n : Nat} (x : BitVec n) (lo w v i : Nat) (hi : i < n) :
    bitAt (setFld x lo w v) i = if lo ≤ i ∧ i < lo + w then v.testBit (i - lo) else bitAt x i := by
  rw [bitAt, bitAt, BitVec.getLsbD_eq_getElem hi, BitVec.getLsbD_eq_getElem hi, getElem_setFld]

/-- A field reads as it was set. -/
theorem fld_setFld {n : Nat} (x : BitVec n) {lo w : Nat} (v : Nat) (hn : lo + w ≤ n) : fld (setFld x lo w v) lo w = v % 2 ^ w := by
  refine Nat.eq_of_testBit_eq fun j => ?_
  rw [testBit_fld, Nat.testBit_mod_two_pow]
  by_cases hj : j < w
  · have hb := bitAt_setFld x lo w v (lo + j) (by omega)
    rw [if_pos (by omega), Nat.add_sub_cancel_left] at hb
    rw [← hb]
    rfl
  · rw [decide_eq_false hj, Bool.false_and, Bool.false_and]

/-- A field reads the same when one above it is set. -/
theorem fld_setFld_above {n : Nat} (x : BitVec n) {lo w lo' w' : Nat} (v : Nat) (hw : lo' + w' ≤ lo) (hn : lo ≤ n) :
    fld (setFld x lo w v) lo' w' = fld x lo' w' := by
  refine Nat.eq_of_testBit_eq fun j => ?_
  rw [testBit_fld, testBit_fld]
  by_cases hj : j < w'
  · have hb := bitAt_setFld x lo w v (lo' + j) (by omega)
    rw [if_neg (by omega)] at hb
    exact congrArg (decide (j < w') && ·) hb
  · rw [decide_eq_false hj, Bool.false_and, Bool.false_and]

/-- A handler runs at the taking level, in the secure world at PL3 and else in the world it left. -/
theorem handlerStatus_level (st : W64) {t : Nat} (ht : t < 4) :
    fld (handlerStatus st t) 0 2 = t ∧ bitAt (handlerStatus st t) 2 = (t == 3 || bitAt st 2) := by
  have hl : fld (setFld (setFld (setFld st 0 2 t) 3 1 0) 4 1 0) 0 2 = t := by
    rw [fld_setFld_above _ _ (by decide) (by decide), fld_setFld_above _ _ (by decide) (by decide), fld_setFld _ _ (by decide)]
    exact Nat.mod_eq_of_lt ht
  unfold handlerStatus
  dsimp only
  split
  case isTrue h3 =>
    subst h3
    rw [fld_setFld_above _ _ (by decide) (by decide), bitAt_setFld _ _ _ _ _ (by decide), hl]
    exact ⟨rfl, rfl⟩
  case isFalse h3 =>
    refine ⟨hl, ?_⟩
    rw [bitAt_setFld _ _ _ _ _ (by decide), bitAt_setFld _ _ _ _ _ (by decide), bitAt_setFld _ _ _ _ _ (by decide),
      beq_eq_false_iff_ne.mpr h3]
    rfl

/-- What of a core no control register write touches: where it stands, and its general registers. -/
def Core.standing (k : Core) : W64 × Option W64 × Tab W64 := (k.pc, k.slot, k.g)

theorem applyD_standing (k : Core) (p : PendD) : (k.applyD p).standing = k.standing := by
  unfold Core.applyD; split <;> [rfl; split <;> rfl]

theorem casementDrop_standing (k : Core) (n : Nat) : (k.casementDrop n).standing = k.standing := by
  unfold Core.casementDrop Core.markedDrop; split <;> [rfl; split <;> [rfl; split <;> rfl]]

theorem applyS_standing (sync : Bool) (k : Core) (p : Nat × W64) : (k.applyS sync p).standing = k.standing := by
  unfold Core.applyS
  dsimp only
  split
  · split <;> rfl
  · split
    · exact casementDrop_standing _ _
    · exact casementDrop_standing _ _

theorem applyAll_standing (sync : Bool) (k : Core) : (k.applyAll sync).standing = k.standing := by
  unfold Core.applyAll
  refine List.foldlRecOn (motive := fun q : Core => q.standing = k.standing) _ _ ?_ fun q hq p _ => (applyS_standing sync q p).trans hq
  exact List.foldlRecOn (motive := fun q : Core => q.standing = k.standing) _ _ rfl fun q hq p _ => (applyD_standing q p).trans hq

theorem reports_status_g (k : Core) (t orig : Nat) (e : Exc) :
    (k.reports t orig e).status = k.status ∧ (k.reports t orig e).g = k.g := by
  have hf := List.foldlRecOn (motive := fun q : Core => q.status = k.status ∧ q.g = k.g) (k.excRegs orig e)
    (fun q p => q.crPut (crKey (excBase t + p.1) (t == 3 || k.secure)) p.2) ⟨rfl, rfl⟩ fun q hq _ _ => hq
  unfold Core.reports
  dsimp only
  split
  · exact hf
  · exact hf

theorem entered_eq (k : Core) (t orig : Nat) (e : Exc) (kind : Option Nat) :
    (k.entered t orig e kind).status = handlerStatus k.status t ∧ (k.entered t orig e kind).g = k.g ∧
      ∀ m, (k.entered t orig e kind).crBase m = (k.reports t orig e).crBase m := by
  obtain ⟨hs, hg⟩ := reports_status_g k t orig e
  unfold Core.entered
  dsimp only
  rw [hs]
  split <;> exact ⟨rfl, hg, fun _ => rfl⟩

theorem takingLevel_lt (k : Core) {route : Nat} (hr : route < 4) : (takingLevel k route).2 < 4 := by
  have hp : k.pl < 4 := Nat.mod_lt _ (by decide)
  unfold takingLevel
  dsimp only
  split
  · decide
  · exact max_lt hr hp

theorem routeIn_lt (sec : Bool) {route : Nat} (hr : route < 4) : routeIn sec route < 4 := by
  unfold routeIn
  split_ifs <;> omega

/-- The exception registers that a handler reads hold what entry put there. -/
theorem enter_excReg (k : Core) {t : Nat} (ht : t < 4) (orig : Nat) (e : Exc) (kind : Option Nat) {p : Nat × W64}
    (hp : p ∈ (k.applyAll false).discarded.excRegs orig e) :
    (k.enter t orig e kind).crBase (crKey (0x100 * (k.enter t orig e kind).pl + p.1) (k.enter t orig e kind).secure) = p.2 := by
  rw [enter_eq]
  generalize (k.applyAll false).discarded = a at hp
  obtain ⟨hst, -, hcr⟩ := entered_eq a t orig e kind
  obtain ⟨hpl, hsec⟩ := handlerStatus_level a.status ht
  rw [hcr, Core.pl, Core.secure, hst, hpl, hsec]
  exact crBase_reports a t orig e hp

theorem enter_g (k : Core) (t orig : Nat) (e : Exc) (kind : Option Nat) :
    (k.enter t orig e kind).g = (k.applyAll false).g := (entered_eq _ t orig e kind).2.1

/-- Counting moves no exception register. -/
theorem CountsOnly.excReg {k k' : Core} (h : CountsOnly (fun _ => false) k k') {n : Nat} (hn : n < 8) :
    k'.crBase (crKey (0x100 * k'.pl + n) k'.secure) = k.crBase (crKey (0x100 * k.pl + n) k.secure) := by
  rw [h.pl, h.secure]
  exact h.crBase (counterKey_excKey _ hn _)

/-- An exception taken before its instruction retires reports the instruction's address, its EADDR and whether it stood in a slot, and
changes no general register (R61, R62). -/
theorem TakenAt.reports {s t : State} {c : Nat} {e : Exc} {kind : Option Nat} (h : TakenAt s t c e kind) (hroute : e.route < 4)
    (hpc : e.nextPc = false) :
    let r (n : Nat) : W64 := (t.core c).crBase (crKey (0x100 * (t.core c).pl + n) (t.core c).secure)
    r 1 = (s.core c).pc ∧ r 4 = e.eaddr ∧ bitAt (r 0) 5 = (s.core c).slot.isSome ∧ (t.core c).g = (s.core c).g := by
  obtain ⟨hp, hs, hg⟩ : ((s.core c).applyAll false).pc = (s.core c).pc ∧ ((s.core c).applyAll false).slot = (s.core c).slot ∧
      ((s.core c).applyAll false).g = (s.core c).g := by
    simpa [Core.standing] using applyAll_standing false (s.core c)
  have hlv := takingLevel_lt (s.core c) (route := if e.code = 0x20 then 3 else routeIn (s.core c).secure e.route)
    (by split <;> [decide; exact routeIn_lt _ hroute])
  have hk := h.counts
  generalize takingLevel (s.core c) _ = lv at hlv hk
  have h0 := enter_excReg (s.core c) hlv lv.1 e kind (p := (0, _)) List.mem_cons_self
  have h1 := enter_excReg (s.core c) hlv lv.1 e kind (p := (1, _)) (List.mem_cons_of_mem _ List.mem_cons_self)
  have h4 := enter_excReg (s.core c) hlv lv.1 e kind (p := (4, e.eaddr)) (by simp [Core.excRegs])
  refine ⟨(hk.excReg (by decide)).trans (h1.trans ?_), (hk.excReg (by decide)).trans h4, ?_, hk.g.trans ((enter_g ..).trans hg)⟩
  · rw [hpc]
    exact hp
  · have hds := congrArg (fun x => bitAt x 5) ((hk.excReg (n := 0) (by decide)).trans h0)
    refine hds.trans ((bitAt_setBit _ _ _ (by decide)).trans ?_)
    rw [hpc, ← hs]
    exact Bool.and_true _

end Sys2Proof.Machine
end

section
/-! PROOFS. Instructions that retire with a change of their core alone, with division (R84). -/

namespace Sys2Proof.Machine

/-! ## Instructions that change their core and retire -/

/-- Work that follows a change of the core ends as it does from the core so changed. -/
theorem Ends.of_onCore {s t : State} {c : Nat} {f : Core → Core} {k : Core} (h : Ends (s.onCore c f) t c k) : Ends s t c k := by
  obtain ⟨ha, hd, hk⟩ := h
  exact ⟨ha, fun d hc => (hd d hc).trans (by rw [core_onCore, if_neg hc]), hk⟩

/-- An instruction that is ready does its own work, where that ends by counting. -/
theorem runInstr_ends {s : State} {c : Nat} {i : Instr} (h : Ready s c i) {body : State → State} {k : Core}
    (hb : Ends (fetched s c i) (body (fetched s c i)) c k) : runInstr s c i body = body (fetched s c i) :=
  runInstr_of_ready h (hb.stalled.trans h.fetched_stalled)

/-- An instruction whose whole effect is a change of its core makes it, and the core goes on. -/
theorem coreInstr_ends {s : State} {c : Nat} {i : Instr} (h : Ready s c i) (f : State → Core → Core) :
    ∃ t, coreInstr s c i f = .next t ∧ Ends (fetched s c i) t c (f (fetched s c i) ((fetched s c i).core c)).past := by
  have hb : Ends (fetched s c i) (((fetched s c i).onCore c (f (fetched s c i))).retire c) c
      (f (fetched s c i) ((fetched s c i).core c)).past := by
    have hr := retire_ends ((fetched s c i).onCore c (f (fetched s c i))) c
    rw [core_onCore, if_pos rfl] at hr
    exact hr.of_onCore
  exact ⟨_, congrArg done (runInstr_ends h hb), hb⟩

/-! ## Division (R84) -/

theorem divVal_zero (fn : DivFn) (a : W64) :
    divVal fn a 0 = match fn with | .div | .divu => BitVec.allOnes 64 | .rem | .remu => a := by
  cases fn with
  | div => rw [divVal, divS, if_pos rfl]
  | divu => rw [divVal, divU, if_pos rfl]
  | rem => rw [divVal, remS, if_pos rfl]
  | remu => rw [divVal, remU, if_pos rfl]

/-- By a divisor other than zero the signed quotient is the library's, wrapped to the width. -/
theorem divS_of_ne_zero {n : Nat} (a : BitVec n) {b : BitVec n} (hb : b ≠ 0) : divS a b = a.sdiv b := by
  rw [divS, if_neg hb]
  exact BitVec.eq_of_toInt_eq (by rw [BitVec.toInt_ofInt, BitVec.toInt_sdiv])

theorem divS_intMin_neg_one : divS (BitVec.intMin 64) (-1) = BitVec.intMin 64 :=
  (divS_of_ne_zero _ (by decide)).trans BitVec.intMin_sdiv_neg_one

/-- The remainder by -1 is 0, of the most negative number as of any. -/
theorem remS_neg_one (a : W64) : remS a (-1) = 0 := by
  have h1 : (-1 : W64).toInt = -1 := by decide
  rw [remS, if_neg (by decide), h1, Int.tmod_neg, Int.tmod_one]
  rfl

theorem exec_div (c : CoreId) (fn : DivFn) (f : RRR) (s : State) :
    exec (.div c fn f) s = coreInstr s c (.div c fn f) fun _ k => k.wg f.rd (divVal fn (k.gr f.ra) (k.gr f.rb)) := rfl

/-- Settles O5: a division that is ready retires with its value, which the corners give. -/
theorem divisionCorners : Obligations.DivisionCorners := by
  unfold Obligations.DivisionCorners
  intro c fn f s h
  obtain ⟨t, ht, hends⟩ := coreInstr_ends h fun _ k => k.wg f.rd (divVal fn (k.gr f.ra) (k.gr f.rb))
  refine ⟨t, _, (exec_div c fn f s).trans ht, hends, fun a b ha hb hrd => ?_⟩
  have hval : (t.core c).gr f.rd = divVal fn a b := by
    rw [hends.counts.gr, ← ha, ← hb]
    exact (gr_wg _ _ _ _).trans (by rw [if_neg hrd, if_pos rfl])
  rw [hval]
  refine ⟨?_, ?_, ?_⟩
  · rintro rfl
    exact divVal_zero fn a
  · rintro rfl rfl rfl
    exact divS_intMin_neg_one
  · rintro - rfl rfl
    exact remS_neg_one a

end Sys2Proof.Machine
end

section
/-! PROOFS. Jumps (R97-R99): a taken branch's way of retiring, the link, and the ALIGN of a misaligned target. -/

namespace Sys2Proof.Machine

/-- What a taken branch counts as it retires (R467). -/
def State.branchCounted (s : State) (c : Nat) : State :=
  let s := s.event c 0x003 1
  (if (s.core c).misp.contains (s.core c).pc then s.event c 0x004 1 else s).retired c

/-- A core whose branch is no longer a wrong prediction to count. -/
def Core.branchSettled (k : Core) : Core := { k with misp := k.misp.filter (· != k.pc) }

theorem branchTo_taken_eq (s : State) (c : Nat) (tgt : W64) (d a : Bool) :
    branchTo s c true tgt d a = ((s.branchCounted c).onCore c (fun k => k.branchSettled.branched true d a tgt)).cyclesPass c := by
  cases d with
  | false => rfl
  | true => rfl

theorem branchCounted_ends (s : State) (c : Nat) : Ends s (s.branchCounted c) c (s.core c) :=
  ((event_ends s c 0x003 1).ite _ (f := fun u => u.event c 0x004 1) fun u => event_ends u c _ _).trans (retired_ends _ c)

theorem CountsOnly.branchSettled {k k' : Core} (h : CountsOnly (fun _ => false) k k') :
    CountsOnly (fun _ => false) k k'.branchSettled := h

theorem CountsOnly.branched_taken {k k' : Core} (h : CountsOnly (fun _ => false) k k') (d a : Bool) (tgt : W64) :
    CountsOnly (fun _ => false) (k.branched true d a tgt) (k'.branched true d a tgt) := by
  obtain ⟨hu, hc, hp⟩ := h
  cases d with
  | false => exact ⟨congrArg (fun q => q.branched true false a tgt) hu, hc, hp⟩
  | true => exact ⟨congrArg (fun q => q.branched true true a tgt) hu, hc, hp⟩

/-- A branch that is taken retires at its target, or in its slot, and counts. -/
theorem branchTo_taken_ends (s : State) (c : Nat) (tgt : W64) (d a : Bool) :
    Ends s (branchTo s c true tgt d a) c ((s.core c).branched true d a tgt) := by
  have hr := branchCounted_ends s c
  rw [branchTo_taken_eq]
  exact (hr.onCore (hr.counts.branchSettled.branched_taken d a tgt)).trans (cyclesPassN_ends _ c _)

/-- A core that has linked, and moved its return stack (R181). -/
def Core.linked (k : Core) (rd : RegNo) (link : W64) (ret : Bool) : Core :=
  let k := k.wg rd link
  if rd = 31 then rasPush k link else if ret then rasPop k else k

theorem jump_eq (s : State) (c : Nat) (rd : RegNo) (tgt : W64) (d ret : Bool) :
    jump s c rd tgt d ret =
      branchTo (s.onCore c fun k => k.linked rd ((s.core c).pc + (if d then 8 else 4)) ret) c true tgt d false := rfl

/-- The return stack is prediction state. -/
theorem linked_eq (k : Core) (rd : RegNo) (link : W64) (ret : Bool) : ∃ p, k.linked rd link ret = { k.wg rd link with pred := p } := by
  unfold Core.linked
  dsimp only
  generalize k.wg rd link = q
  split
  · exact ⟨_, rfl⟩
  · split
    · exact ⟨_, rfl⟩
    · exact ⟨q.pred, rfl⟩

/-- A jump links, moves the return stack and goes to its target. -/
theorem jump_ends (s : State) (c : Nat) (rd : RegNo) (tgt : W64) (d ret : Bool) :
    ∃ p, Ends s (jump s c rd tgt d ret) c
      ({ (s.core c).wg rd ((s.core c).pc + (if d then 8 else 4)) with pred := p }.branched true d false tgt) := by
  obtain ⟨p, hp⟩ := linked_eq (s.core c) rd ((s.core c).pc + (if d then 8 else 4)) ret
  have hb := branchTo_taken_ends (s.onCore c fun k => k.linked rd ((s.core c).pc + (if d then 8 else 4)) ret) c tgt d false
  rw [core_onCore, if_pos rfl, hp] at hb
  exact ⟨p, hb.of_onCore⟩

/-- A branch or jump that passes its checks stands in no slot (R101). -/
theorem Ready.slot_eq_none {s : State} {c : Nat} {i : Instr} (h : Ready s c i) (hi : slotBranch i = true) :
    ((fetched s c i).core c).slot = none := by
  obtain ⟨-, -, -, hc, -⟩ := h
  revert hc
  unfold fetched checks
  dsimp only
  generalize fetch _ c = r
  obtain ⟨u, _ | e⟩ := r
  · dsimp only
    by_cases hs : (u.core c).slot.isSome = true
    · rw [if_pos ⟨hi, hs⟩]
      exact fun hc => by cases hc
    · rw [if_neg (fun hb => hs hb.2)]
      split <;> exact fun _ => Option.not_isSome_iff_eq_none.mp hs
  · exact fun hc => by cases hc

theorem exec_jal (c : CoreId) (rd : RegNo) (d : Bool) (off : BitVec 19) (s : State) :
    exec (.jal c rd d off) s = .next (runInstr s c (.jal c rd d off) fun u => jump u c rd (target (u.core c).pc off) d false) := rfl

theorem exec_jalr (c : CoreId) (rd ra : RegNo) (d : Bool) (imm : BitVec 13) (s : State) :
    exec (.jalr c rd ra d imm) s = .next (runInstr s c (.jalr c rd ra d imm) fun u =>
      if (targetR (u.core c) ra imm).toNat % 4 ≠ 0 then u.except c (alignExc (targetR (u.core c) ra imm) false)
      else jump u c rd (targetR (u.core c) ra imm) d (rd == 0 && ra == 31)) := rfl

/-- A JALR to a misaligned target raises ALIGN (R98). -/
theorem jalr_misaligned {s : State} {c : CoreId} {rd ra : RegNo} {d : Bool} {imm : BitVec 13} (h : Ready s c (.jalr c rd ra d imm))
    (hm : (targetR ((fetched s c (.jalr c rd ra d imm)).core c) ra imm).toNat % 4 ≠ 0) :
    ∃ t, exec (.jalr c rd ra d imm) s = .next t ∧ TakenAt (fetched s c (.jalr c rd ra d imm)) t c
      (Exc.plain 0x03 1 (targetR ((fetched s c (.jalr c rd ra d imm)).core c) ra imm) 0) none := by
  have ht := except_takenAt (fetched s c (.jalr c rd ra d imm)) c
    (Exc.plain 0x03 1 (targetR ((fetched s c (.jalr c rd ra d imm)).core c) ra imm) 0)
  refine ⟨_, ?_, ht⟩
  rw [exec_jalr, runInstr_ends h (by rw [if_pos hm]; exact ht), if_pos hm]
  rfl

/-- A JALR to an aligned target links and jumps (R99). -/
theorem jalr_aligned {s : State} {c : CoreId} {rd ra : RegNo} {d : Bool} {imm : BitVec 13} (h : Ready s c (.jalr c rd ra d imm))
    (hm : (targetR ((fetched s c (.jalr c rd ra d imm)).core c) ra imm).toNat % 4 = 0) :
    exec (.jalr c rd ra d imm) s = .next (jump (fetched s c (.jalr c rd ra d imm)) c rd
      (targetR ((fetched s c (.jalr c rd ra d imm)).core c) ra imm) d (rd == 0 && ra == 31)) := by
  obtain ⟨p, hj⟩ := jump_ends (fetched s c (.jalr c rd ra d imm)) c rd
    (targetR ((fetched s c (.jalr c rd ra d imm)).core c) ra imm) d (rd == 0 && ra == 31)
  rw [exec_jalr, runInstr_ends h (by rw [if_neg (not_not.mpr hm)]; exact hj), if_neg (not_not.mpr hm)]

/-- Settles O13: both link and jump where the target is aligned, and what the ALIGN of a JALR reports is what its entry puts. -/
theorem jumpsComplete : Obligations.JumpsComplete := by
  unfold Obligations.JumpsComplete
  refine ⟨?_, ?_⟩
  · intro c rd d off s i k h
    obtain ⟨p, hj⟩ := jump_ends (fetched s c i) c rd (target k.pc off) d false
    exact ⟨_, p, (exec_jal c rd d off s).trans (congrArg _ (runInstr_ends h hj)), hj⟩
  intro c rd ra d imm s i k tgt h
  refine ⟨fun hm => ?_, fun hm => ?_⟩
  · obtain ⟨p, hj⟩ := jump_ends (fetched s c i) c rd tgt d (rd == 0 && ra == 31)
    exact ⟨_, p, jalr_aligned h hm, hj⟩
  · obtain ⟨t, ht, htaken⟩ := jalr_misaligned h hm
    obtain ⟨hpc, haddr, hds, hg⟩ := htaken.reports (by decide : 1 < 4) rfl
    rw [h.slot_eq_none rfl] at hds
    exact ⟨t, ht, htaken, hpc, haddr, hds, hg⟩

end Sys2Proof.Machine
end
